-- ==== Sys2Proof/Word.lean ====
section
/-! DEFINITION. The word type of the engine and the two directions of an endpoint. The processor is an 8-bit machine
(20_memory R51); every value is unsigned (00_scope section 6). -/

namespace Sys2Proof

/-- One byte, the unit of every access (20_memory R51). -/
abbrev Byte := BitVec 8

/-- The direction of an endpoint, as the host sees it (30_encoding R74): OUT (also SETUP) or IN. -/
inductive Dir where
  | out
  | inn
deriving DecidableEq, Repr

end Sys2Proof
end

