-- ==== Sys2Proof/Config.lean ====
section
/-! DEFINITION. The implementation's constants, the OPEN parameters as one plain record, the endpoint table, the free
values, and the fixture that `State.reset` takes for the parameters. -/

namespace Sys2Proof

namespace Config

/-- P_MAXP (00_scope R9): the packet size of every endpoint. -/
def maxP : Nat := 64

/-- P_DEVLEN (00_scope R10): the length of the device descriptor. -/
def devLen : Nat := 18

/-- P_NEP (00_scope R11). -/
def nEp : Nat := 3

/-- P_EP_NOTIFY (00_scope R11). -/
def epNotify : BitVec 4 := 1

/-- P_EP_DATA (00_scope R11). -/
def epData : BitVec 4 := 2

/-- FREE VALUE (log entry 11): the bytes `arm_in` copies for the positions below `len` at which its `data` has no byte.
The spec gives `arm_in` its effect and states no byte there, so nothing constrains this one. -/
opaque freeByte : Nat → Byte

/-- FREE VALUE (log entry 29): the bits of UCON other than PKTDIS, which the spec names and gives no value (30_encoding
R77). -/
opaque uconOther : Nat → Byte

end Config

/-- One interface of a configuration: its descriptor and the class-specific and endpoint descriptors that follow it
(00_scope R16, 10_state R43). -/
structure InterfaceDesc where
  iface : List Byte
  subs  : List (List Byte)
deriving DecidableEq, Repr

/-- One configuration: its header and its interfaces in declared order (10_state R43). -/
structure ConfigDesc where
  header : List Byte
  ifaces : List InterfaceDesc
deriving DecidableEq, Repr

/-- P_CATALOG, the DescriptorTree (00_scope R16, 10_state R43): `DEV`, `CONF[0..NCONF-1]` and `STR[0..NSTR-1]`. -/
structure Catalog where
  dev   : List Byte
  confs : List ConfigDesc
  strs  : List (List Byte)
deriving DecidableEq, Repr

/-- P_BUFADDR (00_scope R17): the packet-buffer address of each of the five descriptors of 10_state R20. -/
structure BufAddrs where
  ep0Out : BitVec 16
  ep0In  : BitVec 16
  ep1In  : BitVec 16
  ep2Out : BitVec 16
  ep2In  : BitVec 16
deriving DecidableEq, Repr

/-- The OPEN parameters of 00_scope section 5, one field each. They are constant for a machine; they stand in a field of
State that no step changes (log entry 1), so a statement about every state is a statement about every value of them. -/
structure Params where
  /-- P_RXCAP (00_scope R12). -/
  rxCap            : Nat
  /-- P_USTAT_DEPTH (00_scope R13). -/
  ustatDepth       : Nat
  /-- P_TOGGLE_CHECK (00_scope R14). -/
  toggleCheck      : Bool
  /-- P_RESET_CLEARS_ADDR (00_scope R15). -/
  resetClearsAddr  : Bool
  /-- P_CATALOG (00_scope R16). -/
  catalog          : Catalog
  /-- P_BUFADDR (00_scope R17). -/
  bufAddr          : BufAddrs
deriving DecidableEq, Repr

/-- The OUT callbacks an endpoint may register (10_state R27). -/
inductive OutCallback where
  | rx
deriving DecidableEq, Repr

/-- The IN callbacks an endpoint may register (10_state R27). -/
inductive InCallback where
  | txDone
deriving DecidableEq, Repr

/-- One row of the endpoint table `EPCFG` (10_state R27). -/
structure EpCfg where
  ep      : BitVec 4
  outDir  : Bool
  inDir   : Bool
  outCb   : Option OutCallback
  inCb    : Option InCallback
deriving DecidableEq, Repr

namespace Config

/-- `EPCFG`, the static endpoint table (10_state R27). -/
def epCfg : List EpCfg :=
  [ { ep := 0, outDir := true, inDir := true, outCb := none, inCb := none },
    { ep := epNotify, outDir := false, inDir := true, outCb := none, inCb := none },
    { ep := epData, outDir := true, inDir := true, outCb := some .rx, inCb := some .txDone } ]

/-- The fixture catalog CAT1 (95_test_vectors section 0). DESIGN CHOICE (log entry 1): the value `State.reset` takes for
the OPEN parameter P_CATALOG. -/
def cat1 : Catalog :=
  { dev := [0x12, 0x01, 0x00, 0x02, 0x02, 0x00, 0x00, 0x40, 0x34, 0x12, 0x78, 0x56, 0x00, 0x01, 0x01, 0x02, 0x00, 0x01],
    confs :=
      [ { header := [0x09, 0x02, 0x3E, 0x00, 0x02, 0x01, 0x00, 0x80, 0x32],
          ifaces :=
            [ { iface := [0x09, 0x04, 0x00, 0x00, 0x01, 0x02, 0x02, 0x01, 0x00],
                subs :=
                  [ [0x05, 0x24, 0x00, 0x10, 0x01], [0x04, 0x24, 0x02, 0x02], [0x05, 0x24, 0x06, 0x00, 0x01],
                    [0x07, 0x05, 0x81, 0x03, 0x08, 0x00, 0xFF] ] },
              { iface := [0x09, 0x04, 0x01, 0x00, 0x02, 0x0A, 0x00, 0x00, 0x00],
                subs := [ [0x07, 0x05, 0x02, 0x02, 0x40, 0x00, 0x00], [0x07, 0x05, 0x82, 0x02, 0x40, 0x00, 0x00] ] } ] } ],
    strs := [ [0x09, 0x04], [0x41, 0x00, 0x42, 0x00], [0x43, 0x00] ] }

/-- The parameter fixture of 95_test_vectors section 0. DESIGN CHOICE (log entry 1). -/
def fixture : Params :=
  { rxCap := 8, ustatDepth := 4, toggleCheck := false, resetClearsAddr := true, catalog := cat1,
    bufAddr := { ep0Out := 0x0500, ep0In := 0x0540, ep1In := 0x0580, ep2Out := 0x05C0, ep2In := 0x0600 } }

end Config

end Sys2Proof
end

