-- ==== Sys2Proof/Syntax.lean ====
section
/-! DEFINITION. The operations of the engine as syntax: one constructor of `Instr` for each of the 51 rows of
spec/opcode_table.json (30_encoding R81 to R84, R88), with the row's operands. -/

namespace Sys2Proof

/-- The seven formats of the operation map (30_encoding). -/
inductive Format where
  | setup64
  | classreq8
  | irq16
  | outdone8
  | pid4
  | call8
  | busev8
deriving DecidableEq, Repr

/-- The eight bytes of a SETUP packet (30_encoding R65). -/
structure SetupPkt where
  p0 : Byte
  p1 : Byte
  p2 : Byte
  p3 : Byte
  p4 : Byte
  p5 : Byte
  p6 : Byte
  p7 : Byte
deriving DecidableEq, Repr

/-- The subfields of `bmRequestType` the row's type bits do not fix (30_encoding R66): the direction (bit 7) and the
recipient (bits 4:0). The engine reads neither (decision D11). -/
structure ReqHead where
  direction : BitVec 1
  recipient : BitVec 5
deriving DecidableEq, Repr

/-- The error kinds of `BUS.ERROR`, the bits of `UEIR` (30_encoding R76). -/
inductive ErrKind where
  | pidef
  | crc5ef
  | crc16ef
  | dfn8ef
  | btoef
  | btsef
deriving DecidableEq, Repr

/-- The operations, one constructor per row of spec/opcode_table.json, in the table's order. -/
inductive Instr where
  -- SETUP64 (30_encoding R65, R84)
  | getDescriptorDevice (h : ReqHead) (index : Byte) (wIndex wLength : BitVec 16)
  | getDescriptorConfiguration (h : ReqHead) (index : Byte) (wIndex wLength : BitVec 16)
  | getDescriptorString (h : ReqHead) (index : Byte) (wIndex wLength : BitVec 16)
  | getDescriptorDeviceQualifier (h : ReqHead) (index : Byte) (wIndex wLength : BitVec 16)
  | getDescriptorOther (h : ReqHead) (dtype index : Byte) (wIndex wLength : BitVec 16)
  | setAddress (h : ReqHead) (wValue wIndex wLength : BitVec 16)
  | setConfiguration (h : ReqHead) (wValue wIndex wLength : BitVec 16)
  | stdOther (h : ReqHead) (bRequest : Byte) (wValue wIndex wLength : BitVec 16)
  | classNodata (h : ReqHead) (bRequest : Byte) (wValue wIndex : BitVec 16)
  | classData (h : ReqHead) (bRequest : Byte) (wValue wIndex wLength : BitVec 16)
  | vendorNodata (h : ReqHead) (bRequest : Byte) (wValue wIndex : BitVec 16)
  | vendorData (h : ReqHead) (bRequest : Byte) (wValue wIndex wLength : BitVec 16)
  | reservedType (h : ReqHead) (bRequest : Byte) (wValue wIndex wLength : BitVec 16)
  -- CLASSREQ8 (30_encoding R69, 43_class_requests R125)
  | clsSetLineCoding (payload : Option (List Byte))
  | clsSetControlLineState (payload : Option (List Byte))
  | clsOther (bRequest : Byte) (payload : Option (List Byte))
  -- IRQ16 (30_encoding R83)
  | dispatchReset (errf stallf trnf : Bool) (dir : Dir) (endp : BitVec 4)
  | dispatchError (stallf trnf : Bool) (dir : Dir) (endp : BitVec 4)
  | dispatchStall (trnf : Bool) (dir : Dir) (endp : BitVec 4)
  | dispatchTrnIn (endp : BitVec 4)
  | dispatchTrnOut (endp : BitVec 4)
  -- OUTDONE8 (30_encoding R83)
  | ep0Setup
  | epxSetup (endp : BitVec 4)
  | ep0TokenOut
  | dataTokenOut
  | epxTokenOut (endp : BitVec 4)
  | outAck (endp : BitVec 4)
  | outOtherPid (endp pid : BitVec 4)
  -- PID4 (30_encoding R72, R73)
  | pidOut
  | pidIn
  | pidSof
  | pidSetup
  | pidData0
  | pidData1
  | pidAck
  | pidNak
  | pidStall
  -- CALL8 (30_encoding R81)
  | init
  | readCharacter
  | writeCharacter (b : Byte)
  | writeString (s : List Byte)
  | armOut (ep : BitVec 4) (t : Bool)
  | armIn (ep : BitVec 4) (data : Option (List Byte)) (len : BitVec 16) (t : Bool)
  | stallIn (ep : BitVec 4)
  | rxCallback (d : List Byte)
  | txDoneCallback
  -- BUSEV8 (30_encoding R82)
  | busSetup (a : BitVec 7) (ep : BitVec 4) (p : SetupPkt)
  | busOut (a : BitVec 7) (ep : BitVec 4) (t : Bool) (d : List Byte)
  | busIn (a : BitVec 7) (ep : BitVec 4)
  | busReset
  | busError (k : ErrKind)
deriving DecidableEq, Repr

/-- The format of each row. -/
def Instr.format : Instr → Format
  | .getDescriptorDevice .. => .setup64
  | .getDescriptorConfiguration .. => .setup64
  | .getDescriptorString .. => .setup64
  | .getDescriptorDeviceQualifier .. => .setup64
  | .getDescriptorOther .. => .setup64
  | .setAddress .. => .setup64
  | .setConfiguration .. => .setup64
  | .stdOther .. => .setup64
  | .classNodata .. => .setup64
  | .classData .. => .setup64
  | .vendorNodata .. => .setup64
  | .vendorData .. => .setup64
  | .reservedType .. => .setup64
  | .clsSetLineCoding .. => .classreq8
  | .clsSetControlLineState .. => .classreq8
  | .clsOther .. => .classreq8
  | .dispatchReset .. => .irq16
  | .dispatchError .. => .irq16
  | .dispatchStall .. => .irq16
  | .dispatchTrnIn .. => .irq16
  | .dispatchTrnOut .. => .irq16
  | .ep0Setup => .outdone8
  | .epxSetup .. => .outdone8
  | .ep0TokenOut => .outdone8
  | .dataTokenOut => .outdone8
  | .epxTokenOut .. => .outdone8
  | .outAck .. => .outdone8
  | .outOtherPid .. => .outdone8
  | .pidOut => .pid4
  | .pidIn => .pid4
  | .pidSof => .pid4
  | .pidSetup => .pid4
  | .pidData0 => .pid4
  | .pidData1 => .pid4
  | .pidAck => .pid4
  | .pidNak => .pid4
  | .pidStall => .pid4
  | .init => .call8
  | .readCharacter => .call8
  | .writeCharacter .. => .call8
  | .writeString .. => .call8
  | .armOut .. => .call8
  | .armIn .. => .call8
  | .stallIn .. => .call8
  | .rxCallback .. => .call8
  | .txDoneCallback => .call8
  | .busSetup .. => .busev8
  | .busOut .. => .busev8
  | .busIn .. => .busev8
  | .busReset => .busev8
  | .busError .. => .busev8

end Sys2Proof
end

