-- ==== Sys2Proof/WellFormed.lean ====
section
/-! DEFINITION. Which terms of `Instr` stand for an operation of the spec: the conditions the encodings put on the
operands (a row of lower priority excludes the values of the rows before it, 30_encoding R83, R84) and the ranges the
rules give them (R82, R86, R131). -/

namespace Sys2Proof

/-- A payload handed to `process` (43_class_requests R125): absent, or at most one packet. -/
def payloadOk : Option (List Byte) → Bool
  | none => true
  | some d => decide (d.length ≤ Config.maxP)

/-- The well-formedness check of an operation. -/
def Instr.wellFormed : Instr → Bool
  | .getDescriptorDevice .. => true
  | .getDescriptorConfiguration .. => true
  | .getDescriptorString .. => true
  | .getDescriptorDeviceQualifier .. => true
  -- R68: the types with a row of their own
  | .getDescriptorOther _ dtype _ _ _ => dtype != 0x01 && dtype != 0x02 && dtype != 0x03 && dtype != 0x06
  | .setAddress .. => true
  | .setConfiguration .. => true
  -- R67: the requests with a row of their own
  | .stdOther _ bRequest _ _ _ => bRequest != 0x05 && bRequest != 0x06 && bRequest != 0x09
  | .classNodata .. => true
  -- R84: wLength ≠ 0
  | .classData _ _ _ _ wLength => wLength != 0
  | .vendorNodata .. => true
  | .vendorData _ _ _ _ wLength => wLength != 0
  | .reservedType .. => true
  | .clsSetLineCoding payload => payloadOk payload
  | .clsSetControlLineState payload => payloadOk payload
  -- R69: the codes with a row of their own
  | .clsOther bRequest payload => bRequest != 0x20 && bRequest != 0x22 && payloadOk payload
  | .dispatchReset .. => true
  | .dispatchError .. => true
  | .dispatchStall .. => true
  | .dispatchTrnIn .. => true
  | .dispatchTrnOut .. => true
  | .ep0Setup => true
  | .epxSetup endp => endp != 0
  | .ep0TokenOut => true
  | .dataTokenOut => true
  | .epxTokenOut endp => endp != 0 && endp != Config.epData
  | .outAck .. => true
  | .outOtherPid _ pid => pid != 0x1 && pid != 0x2 && pid != 0xD
  | .pidOut => true
  | .pidIn => true
  | .pidSof => true
  | .pidSetup => true
  | .pidData0 => true
  | .pidData1 => true
  | .pidAck => true
  | .pidNak => true
  | .pidStall => true
  | .init => true
  | .readCharacter => true
  | .writeCharacter .. => true
  | .writeString .. => true
  | .armOut .. => true
  | .armIn .. => true
  | .stallIn .. => true
  -- R131: 0 ≤ n ≤ P_MAXP
  | .rxCallback d => decide (d.length ≤ Config.maxP)
  | .txDoneCallback => true
  | .busSetup .. => true
  -- R82, R155: 0 ≤ n ≤ P_MAXP
  | .busOut _ _ _ d => decide (d.length ≤ Config.maxP)
  | .busIn .. => true
  | .busReset => true
  | .busError .. => true

end Sys2Proof
end

