-- ==== Sys2Proof/Decode.lean ====
section
/-! DEFINITION. The decoder and the encoder of the engine's formats (30_encoding R65 to R88). A line of the program is a
format and a record of bytes: the row's word, then its operands (log entry 3). `decode` is total and rejects by name. -/

namespace Sys2Proof

/-! ## Byte order and bit fields -/

/-- `le16` (20_memory R50): the byte at the lower position is the less significant. -/
def le16 (lo hi : Byte) : BitVec 16 := hi ++ lo

/-- The less significant byte of a 16-bit field (20_memory R50). -/
def loByte (w : BitVec 16) : Byte := w.extractLsb' 0 8

/-- The more significant byte of a 16-bit field (20_memory R50). -/
def hiByte (w : BitVec 16) : Byte := w.extractLsb' 8 8

/-- Bits 3:0 of a byte. -/
def loNibble (b : Byte) : BitVec 4 := b.extractLsb' 0 4

/-- Bits 7:4 of a byte. -/
def hiNibble (b : Byte) : BitVec 4 := b.extractLsb' 4 4

/-- One bit as a byte. -/
def bitByte (b : Bool) : Byte := if b then 1 else 0

/-! ## Packet identifiers (30_encoding R72, R73) -/

namespace Pid
/-- The 4-bit codes of 30_encoding R72. -/
def out   : BitVec 4 := 0b0001
def inn   : BitVec 4 := 0b1001
def sof   : BitVec 4 := 0b0101
def setup : BitVec 4 := 0b1101
def data0 : BitVec 4 := 0b0011
def data1 : BitVec 4 := 0b1011
def ack   : BitVec 4 := 0b0010
def nak   : BitVec 4 := 0b1010
def stall : BitVec 4 := 0b1110

/-- The data PID of a toggle (30_encoding R73): toggle 0 is `DATA0`, toggle 1 is `DATA1`. -/
def ofToggle (t : Bool) : BitVec 4 := if t then data1 else data0
end Pid

/-! ## The SETUP packet (30_encoding R65, R66) -/

namespace SetupPkt
/-- `W = p[7], ..., p[0]`, the packet as one 64-bit word (30_encoding R65). -/
def word (p : SetupPkt) : BitVec 64 := p.p7 ++ p.p6 ++ p.p5 ++ p.p4 ++ p.p3 ++ p.p2 ++ p.p1 ++ p.p0

def bytes (p : SetupPkt) : List Byte := [p.p0, p.p1, p.p2, p.p3, p.p4, p.p5, p.p6, p.p7]

/-- `bmRequestType[7]` and `bmRequestType[4:0]` (R66). -/
def head (p : SetupPkt) : ReqHead := ⟨p.p0.extractLsb' 7 1, p.p0.extractLsb' 0 5⟩

/-- `bmRequestType[6:5]` (R66): 0 Standard, 1 Class, 2 Vendor, 3 Reserved. -/
def reqType (p : SetupPkt) : BitVec 2 := p.p0.extractLsb' 5 2

def bRequest (p : SetupPkt) : Byte := p.p1
def wValue (p : SetupPkt) : BitVec 16 := le16 p.p2 p.p3
def wIndex (p : SetupPkt) : BitVec 16 := le16 p.p4 p.p5
def wLength (p : SetupPkt) : BitVec 16 := le16 p.p6 p.p7

/-- The packet with these fields (the inverse of the accessors above). -/
def make (h : ReqHead) (ty : BitVec 2) (bRequest : Byte) (wValue wIndex wLength : BitVec 16) : SetupPkt :=
  { p0 := h.direction ++ ty ++ h.recipient, p1 := bRequest, p2 := loByte wValue, p3 := hiByte wValue,
    p4 := loByte wIndex, p5 := hiByte wIndex, p6 := loByte wLength, p7 := hiByte wLength }
end SetupPkt

/-! ## The operation map, row by row (30_encoding R83, R84, R88) -/

/-- The SETUP64 selection (30_encoding R84), in its priority order. Every packet selects a row. -/
def decodeSetup (p : SetupPkt) : Instr :=
  if p.reqType = 0 then
    if p.bRequest = 0x06 then
      if p.p3 = 0x01 then .getDescriptorDevice p.head p.p2 p.wIndex p.wLength
      else if p.p3 = 0x02 then .getDescriptorConfiguration p.head p.p2 p.wIndex p.wLength
      else if p.p3 = 0x03 then .getDescriptorString p.head p.p2 p.wIndex p.wLength
      else if p.p3 = 0x06 then .getDescriptorDeviceQualifier p.head p.p2 p.wIndex p.wLength
      else .getDescriptorOther p.head p.p3 p.p2 p.wIndex p.wLength
    else if p.bRequest = 0x05 then .setAddress p.head p.wValue p.wIndex p.wLength
    else if p.bRequest = 0x09 then .setConfiguration p.head p.wValue p.wIndex p.wLength
    else .stdOther p.head p.bRequest p.wValue p.wIndex p.wLength
  else if p.reqType = 1 then
    if p.wLength = 0 then .classNodata p.head p.bRequest p.wValue p.wIndex
    else .classData p.head p.bRequest p.wValue p.wIndex p.wLength
  else if p.reqType = 2 then
    if p.wLength = 0 then .vendorNodata p.head p.bRequest p.wValue p.wIndex
    else .vendorData p.head p.bRequest p.wValue p.wIndex p.wLength
  else .reservedType p.head p.bRequest p.wValue p.wIndex p.wLength

/-- The CLASSREQ8 selection on `bRequest` (30_encoding R84, R69). -/
def decodeClassReq (bRequest : Byte) (payload : Option (List Byte)) : Instr :=
  if bRequest = 0x20 then .clsSetLineCoding payload
  else if bRequest = 0x22 then .clsSetControlLineState payload
  else .clsOther bRequest payload

/-- The IRQ16 selection on the word `ustat, uir` (30_encoding R83), in its priority order; `none` when no flag the
dispatcher serves is set (R112). -/
def decodeIrq (uir ustat : Byte) : Option Instr :=
  let rstf := uir.getLsbD 0
  let errf := uir.getLsbD 1
  let trnf := uir.getLsbD 3
  let stallf := uir.getLsbD 5
  let dir : Dir := if ustat.getLsbD 2 then .inn else .out
  let endp : BitVec 4 := ustat.extractLsb' 3 4
  if rstf then some (.dispatchReset errf stallf trnf dir endp)
  else if errf then some (.dispatchError stallf trnf dir endp)
  else if stallf then some (.dispatchStall trnf dir endp)
  else if trnf then
    match dir with
    | .inn => some (.dispatchTrnIn endp)
    | .out => some (.dispatchTrnOut endp)
  else none

/-- The OUTDONE8 selection on `endp, pid` (30_encoding R83), in its priority order. -/
def decodeOutDone (endp pid : BitVec 4) : Instr :=
  if pid = Pid.setup then (if endp = 0 then .ep0Setup else .epxSetup endp)
  else if pid = Pid.out then
    if endp = 0 then .ep0TokenOut
    else if endp = Config.epData then .dataTokenOut
    else .epxTokenOut endp
  else if pid = Pid.ack then .outAck endp
  else .outOtherPid endp pid

/-- The PID4 rows (30_encoding R72); `none` for a code the rule does not name. -/
def decodePid (pid : BitVec 4) : Option Instr :=
  if pid = Pid.out then some .pidOut
  else if pid = Pid.inn then some .pidIn
  else if pid = Pid.sof then some .pidSof
  else if pid = Pid.setup then some .pidSetup
  else if pid = Pid.data0 then some .pidData0
  else if pid = Pid.data1 then some .pidData1
  else if pid = Pid.ack then some .pidAck
  else if pid = Pid.nak then some .pidNak
  else if pid = Pid.stall then some .pidStall
  else none

/-! ## Records -/

/-- Why a record names no operation. Each is a refusal of 60_exceptions R162; none changes any state. -/
inductive DecodeError where
  /-- A code of the format that names no operation or event (30_encoding R81, R82, R85). -/
  | undefinedCode (f : Format) (code : Byte)
  /-- The record has too few or too many bytes for its code (log entry 3); for BUS.SETUP, not 8 data bytes (R155). -/
  | recordLength (f : Format)
  /-- An operand byte that is no bit (a toggle or a presence flag other than 0 and 1; log entry 3). -/
  | notABit (f : Format)
  /-- A device address of more than 7 bits (45_sie_bus_agent R155). -/
  | addressRange
  /-- An endpoint number of more than 4 bits (45_sie_bus_agent R155). -/
  | endpointRange
  /-- A data packet of more than P_MAXP bytes (45_sie_bus_agent R155, decision D48; 44_byte_stream R131). -/
  | packetTooLong
  /-- An error kind that is no bit of UEIR (45_sie_bus_agent R155). -/
  | errorKind
  /-- An IRQ16 word with no flag the dispatcher serves (42_dispatcher R111). -/
  | noFlag
deriving DecidableEq, Repr

/-- An operand bit. -/
def asBit (f : Format) (b : Byte) : Except DecodeError Bool :=
  if b = 0 then .ok false else if b = 1 then .ok true else .error (.notABit f)

/-- A 7-bit device address (R155). -/
def asAddress (b : Byte) : Except DecodeError (BitVec 7) :=
  if b.getLsbD 7 then .error .addressRange else .ok (b.extractLsb' 0 7)

/-- A 4-bit endpoint number (R155). -/
def asEndpoint (b : Byte) : Except DecodeError (BitVec 4) :=
  if hiNibble b = 0 then .ok (loNibble b) else .error .endpointRange

/-- A packet of at most P_MAXP bytes (R86, R155). -/
def asPacket (d : List Byte) : Except DecodeError (List Byte) :=
  if d.length ≤ Config.maxP then .ok d else .error .packetTooLong

/-- An optional packet: a presence bit, then the bytes. -/
def asPayload (f : Format) : List Byte → Except DecodeError (Option (List Byte))
  | [] => .error (.recordLength f)
  | c :: d =>
    match asBit f c with
    | .error e => .error e
    | .ok true => .ok (some d)
    | .ok false => if d = [] then .ok none else .error (.recordLength f)

/-- The bit number of an error kind in `UEIR` (30_encoding R76). -/
def ErrKind.bit : ErrKind → Nat
  | .pidef => 0
  | .crc5ef => 1
  | .crc16ef => 2
  | .dfn8ef => 3
  | .btoef => 4
  | .btsef => 7

/-- An error kind, given as its bit number in `UEIR` (log entry 3). -/
def asErrKind (b : Byte) : Except DecodeError ErrKind :=
  if b = 0 then .ok .pidef
  else if b = 1 then .ok .crc5ef
  else if b = 2 then .ok .crc16ef
  else if b = 3 then .ok .dfn8ef
  else if b = 4 then .ok .btoef
  else if b = 7 then .ok .btsef
  else .error .errorKind

def decodeSetupRec : List Byte → Except DecodeError Instr
  | [p0, p1, p2, p3, p4, p5, p6, p7] => .ok (decodeSetup ⟨p0, p1, p2, p3, p4, p5, p6, p7⟩)
  | _ => .error (.recordLength .setup64)

def decodeClassRec : List Byte → Except DecodeError Instr
  | [] => .error (.recordLength .classreq8)
  | c :: rest =>
    match asPayload .classreq8 rest with
    | .error e => .error e
    | .ok none => .ok (decodeClassReq c none)
    | .ok (some d) =>
      match asPacket d with
      | .error e => .error e
      | .ok d => .ok (decodeClassReq c (some d))

def decodeIrqRec : List Byte → Except DecodeError Instr
  | [uir, ustat] =>
    match decodeIrq uir ustat with
    | some i => .ok i
    | none => .error .noFlag
  | _ => .error (.recordLength .irq16)

def decodeOutDoneRec : List Byte → Except DecodeError Instr
  | [b] => .ok (decodeOutDone (hiNibble b) (loNibble b))
  | _ => .error (.recordLength .outdone8)

def decodePidRec : List Byte → Except DecodeError Instr
  | [b] =>
    if hiNibble b = 0 then
      match decodePid (loNibble b) with
      | some i => .ok i
      | none => .error (.undefinedCode .pid4 b)
    else .error (.undefinedCode .pid4 b)
  | _ => .error (.recordLength .pid4)

/-- ARM_OUT's operands: `ep`, `t`. -/
def decodeArmOut : List Byte → Except DecodeError Instr
  | [ep, t] =>
    match asEndpoint ep with
    | .error e => .error e
    | .ok ep =>
      match asBit .call8 t with
      | .error e => .error e
      | .ok t => .ok (.armOut ep t)
  | _ => .error (.recordLength .call8)

/-- ARM_IN's operands: `ep`, `t`, `len` (16 bits, little-endian), then `data`. -/
def decodeArmIn : List Byte → Except DecodeError Instr
  | ep :: t :: lo :: hi :: rest =>
    match asEndpoint ep with
    | .error e => .error e
    | .ok ep =>
      match asBit .call8 t with
      | .error e => .error e
      | .ok t =>
        match asPayload .call8 rest with
        | .error e => .error e
        | .ok data => .ok (.armIn ep data (le16 lo hi) t)
  | _ => .error (.recordLength .call8)

/-- STALL_IN's operand: `ep`. -/
def decodeStallIn : List Byte → Except DecodeError Instr
  | [ep] =>
    match asEndpoint ep with
    | .error e => .error e
    | .ok ep => .ok (.stallIn ep)
  | _ => .error (.recordLength .call8)

/-- An operation without operands. -/
def noOperands (i : Instr) : List Byte → Except DecodeError Instr
  | [] => .ok i
  | _ => .error (.recordLength i.format)

/-- WRITE_CHARACTER's operand: the byte. -/
def decodeWriteCharacter : List Byte → Except DecodeError Instr
  | [b] => .ok (.writeCharacter b)
  | _ => .error (.recordLength .call8)

def decodeRxCallback (d : List Byte) : Except DecodeError Instr :=
  match asPacket d with
  | .error e => .error e
  | .ok d => .ok (.rxCallback d)

/-- Format CALL8 (30_encoding R81). -/
def decodeCallRec : List Byte → Except DecodeError Instr
  | [] => .error (.recordLength .call8)
  | c :: rest =>
    if c = 0x00 then noOperands .init rest
    else if c = 0x01 then noOperands .readCharacter rest
    else if c = 0x02 then decodeWriteCharacter rest
    else if c = 0x03 then .ok (.writeString rest)
    else if c = 0x10 then decodeArmOut rest
    else if c = 0x11 then decodeArmIn rest
    else if c = 0x12 then decodeStallIn rest
    else if c = 0x20 then decodeRxCallback rest
    else if c = 0x21 then noOperands .txDoneCallback rest
    else .error (.undefinedCode .call8 c)

/-- BUS.SETUP's operands (R82): `a`, `ep`, exactly eight data bytes (R155). -/
def decodeBusSetup : List Byte → Except DecodeError Instr
  | a :: ep :: rest =>
    match asAddress a with
    | .error e => .error e
    | .ok a =>
      match asEndpoint ep with
      | .error e => .error e
      | .ok ep =>
        match rest with
        | [p0, p1, p2, p3, p4, p5, p6, p7] => .ok (.busSetup a ep ⟨p0, p1, p2, p3, p4, p5, p6, p7⟩)
        | _ => .error (.recordLength .busev8)
  | _ => .error (.recordLength .busev8)

/-- BUS.OUT's operands (R82): `a`, `ep`, the toggle of the data PID, then at most P_MAXP bytes (R155). -/
def decodeBusOut : List Byte → Except DecodeError Instr
  | a :: ep :: t :: d =>
    match asAddress a with
    | .error e => .error e
    | .ok a =>
      match asEndpoint ep with
      | .error e => .error e
      | .ok ep =>
        match asBit .busev8 t with
        | .error e => .error e
        | .ok t =>
          match asPacket d with
          | .error e => .error e
          | .ok d => .ok (.busOut a ep t d)
  | _ => .error (.recordLength .busev8)

/-- BUS.IN's operands (R82): `a`, `ep`. -/
def decodeBusIn : List Byte → Except DecodeError Instr
  | [a, ep] =>
    match asAddress a with
    | .error e => .error e
    | .ok a =>
      match asEndpoint ep with
      | .error e => .error e
      | .ok ep => .ok (.busIn a ep)
  | _ => .error (.recordLength .busev8)

/-- BUS.ERROR's operand (R82): the error kind. -/
def decodeBusError : List Byte → Except DecodeError Instr
  | [k] =>
    match asErrKind k with
    | .error e => .error e
    | .ok k => .ok (.busError k)
  | _ => .error (.recordLength .busev8)

/-- Format BUSEV8 (30_encoding R82). -/
def decodeBusRec : List Byte → Except DecodeError Instr
  | [] => .error (.recordLength .busev8)
  | c :: rest =>
    if c = 0x0D then decodeBusSetup rest
    else if c = 0x01 then decodeBusOut rest
    else if c = 0x09 then decodeBusIn rest
    else if c = 0x10 then noOperands .busReset rest
    else if c = 0x11 then decodeBusError rest
    else .error (.undefinedCode .busev8 c)

/-- The decoder: the operation a record of a format stands for, or why it stands for none. -/
def decode : Format → List Byte → Except DecodeError Instr
  | .setup64, bs => decodeSetupRec bs
  | .classreq8, bs => decodeClassRec bs
  | .irq16, bs => decodeIrqRec bs
  | .outdone8, bs => decodeOutDoneRec bs
  | .pid4, bs => decodePidRec bs
  | .call8, bs => decodeCallRec bs
  | .busev8, bs => decodeBusRec bs

/-! ## The encoder -/

/-- The byte `UIR` with these flags (30_encoding R75); the other bits read 0. -/
def uirByte (rstf errf trnf stallf : Bool) : Byte :=
  (0#2 ++ BitVec.ofBool stallf ++ 0#1 ++ BitVec.ofBool trnf ++ 0#1 ++ BitVec.ofBool errf ++ BitVec.ofBool rstf : BitVec 8)

/-- The byte `USTAT` of a completion (30_encoding R74); the other bits read 0. -/
def ustatByte (dir : Dir) (endp : BitVec 4) : Byte :=
  (0#1 ++ endp ++ BitVec.ofBool (dir == .inn) ++ 0#2 : BitVec 8)

/-- The byte of `endp, pid` (OUTDONE8, 30_encoding R83). -/
def outDoneByte (endp pid : BitVec 4) : Byte := endp ++ pid

/-- A 7-bit address as an operand byte. -/
def addressByte (a : BitVec 7) : Byte := (0#1 ++ a : BitVec 8)

/-- A 4-bit number as an operand byte. -/
def nibbleByte (n : BitVec 4) : Byte := (0#4 ++ n : BitVec 8)

def payloadRec : Option (List Byte) → List Byte
  | none => [0]
  | some d => 1 :: d

def ErrKind.byte (k : ErrKind) : Byte := BitVec.ofNat 8 k.bit

/-- The record of an operation, written from the encodings of 30_encoding and the operand layout of log entry 3. -/
def encode : Instr → List Byte
  | .getDescriptorDevice h index wIndex wLength => (SetupPkt.make h 0 0x06 (le16 index 0x01) wIndex wLength).bytes
  | .getDescriptorConfiguration h index wIndex wLength => (SetupPkt.make h 0 0x06 (le16 index 0x02) wIndex wLength).bytes
  | .getDescriptorString h index wIndex wLength => (SetupPkt.make h 0 0x06 (le16 index 0x03) wIndex wLength).bytes
  | .getDescriptorDeviceQualifier h index wIndex wLength => (SetupPkt.make h 0 0x06 (le16 index 0x06) wIndex wLength).bytes
  | .getDescriptorOther h dtype index wIndex wLength => (SetupPkt.make h 0 0x06 (le16 index dtype) wIndex wLength).bytes
  | .setAddress h wValue wIndex wLength => (SetupPkt.make h 0 0x05 wValue wIndex wLength).bytes
  | .setConfiguration h wValue wIndex wLength => (SetupPkt.make h 0 0x09 wValue wIndex wLength).bytes
  | .stdOther h bRequest wValue wIndex wLength => (SetupPkt.make h 0 bRequest wValue wIndex wLength).bytes
  | .classNodata h bRequest wValue wIndex => (SetupPkt.make h 1 bRequest wValue wIndex 0).bytes
  | .classData h bRequest wValue wIndex wLength => (SetupPkt.make h 1 bRequest wValue wIndex wLength).bytes
  | .vendorNodata h bRequest wValue wIndex => (SetupPkt.make h 2 bRequest wValue wIndex 0).bytes
  | .vendorData h bRequest wValue wIndex wLength => (SetupPkt.make h 2 bRequest wValue wIndex wLength).bytes
  | .reservedType h bRequest wValue wIndex wLength => (SetupPkt.make h 3 bRequest wValue wIndex wLength).bytes
  | .clsSetLineCoding payload => 0x20 :: payloadRec payload
  | .clsSetControlLineState payload => 0x22 :: payloadRec payload
  | .clsOther bRequest payload => bRequest :: payloadRec payload
  | .dispatchReset errf stallf trnf dir endp => [uirByte true errf trnf stallf, ustatByte dir endp]
  | .dispatchError stallf trnf dir endp => [uirByte false true trnf stallf, ustatByte dir endp]
  | .dispatchStall trnf dir endp => [uirByte false false trnf true, ustatByte dir endp]
  | .dispatchTrnIn endp => [uirByte false false true false, ustatByte .inn endp]
  | .dispatchTrnOut endp => [uirByte false false true false, ustatByte .out endp]
  | .ep0Setup => [outDoneByte 0 Pid.setup]
  | .epxSetup endp => [outDoneByte endp Pid.setup]
  | .ep0TokenOut => [outDoneByte 0 Pid.out]
  | .dataTokenOut => [outDoneByte Config.epData Pid.out]
  | .epxTokenOut endp => [outDoneByte endp Pid.out]
  | .outAck endp => [outDoneByte endp Pid.ack]
  | .outOtherPid endp pid => [outDoneByte endp pid]
  | .pidOut => [nibbleByte Pid.out]
  | .pidIn => [nibbleByte Pid.inn]
  | .pidSof => [nibbleByte Pid.sof]
  | .pidSetup => [nibbleByte Pid.setup]
  | .pidData0 => [nibbleByte Pid.data0]
  | .pidData1 => [nibbleByte Pid.data1]
  | .pidAck => [nibbleByte Pid.ack]
  | .pidNak => [nibbleByte Pid.nak]
  | .pidStall => [nibbleByte Pid.stall]
  | .init => [0x00]
  | .readCharacter => [0x01]
  | .writeCharacter b => [0x02, b]
  | .writeString s => 0x03 :: s
  | .armOut ep t => [0x10, nibbleByte ep, bitByte t]
  | .armIn ep data len t => 0x11 :: nibbleByte ep :: bitByte t :: loByte len :: hiByte len :: payloadRec data
  | .stallIn ep => [0x12, nibbleByte ep]
  | .rxCallback d => 0x20 :: d
  | .txDoneCallback => [0x21]
  | .busSetup a ep p => 0x0D :: addressByte a :: nibbleByte ep :: p.bytes
  | .busOut a ep t d => 0x01 :: addressByte a :: nibbleByte ep :: bitByte t :: d
  | .busIn a ep => [0x09, addressByte a, nibbleByte ep]
  | .busReset => [0x10]
  | .busError k => [0x11, k.byte]

/-! ## The opcode table (30_encoding R88) -/

/-- One row of spec/opcode_table.json: it matches a word when `word AND mask = pattern`; of several matching rows of one
format the one with the lowest priority number wins (30_encoding R88). -/
structure TableRow where
  format   : Format
  mask     : BitVec 64
  pattern  : BitVec 64
  priority : Nat
deriving DecidableEq, Repr

def TableRow.matchesWord (r : TableRow) (w : BitVec 64) : Bool := w &&& r.mask == r.pattern

/-- The rows of format SETUP64 (30_encoding R88), in the table's order. -/
def tableSetup64 : List TableRow :=
  [
    ⟨.setup64, 0x00000000FF00FF60, 0x0000000001000600, 1⟩, -- GET_DESCRIPTOR_DEVICE
    ⟨.setup64, 0x00000000FF00FF60, 0x0000000002000600, 1⟩, -- GET_DESCRIPTOR_CONFIGURATION
    ⟨.setup64, 0x00000000FF00FF60, 0x0000000003000600, 1⟩, -- GET_DESCRIPTOR_STRING
    ⟨.setup64, 0x00000000FF00FF60, 0x0000000006000600, 1⟩, -- GET_DESCRIPTOR_DEVICE_QUALIFIER
    ⟨.setup64, 0x000000000000FF60, 0x0000000000000600, 2⟩, -- GET_DESCRIPTOR_OTHER
    ⟨.setup64, 0x000000000000FF60, 0x0000000000000500, 1⟩, -- SET_ADDRESS
    ⟨.setup64, 0x000000000000FF60, 0x0000000000000900, 1⟩, -- SET_CONFIGURATION
    ⟨.setup64, 0x0000000000000060, 0x0000000000000000, 3⟩, -- STD_OTHER
    ⟨.setup64, 0xFFFF000000000060, 0x0000000000000020, 1⟩, -- CLASS_NODATA
    ⟨.setup64, 0x0000000000000060, 0x0000000000000020, 2⟩, -- CLASS_DATA
    ⟨.setup64, 0xFFFF000000000060, 0x0000000000000040, 1⟩, -- VENDOR_NODATA
    ⟨.setup64, 0x0000000000000060, 0x0000000000000040, 2⟩, -- VENDOR_DATA
    ⟨.setup64, 0x0000000000000060, 0x0000000000000060, 1⟩ ] -- RESERVED_TYPE

/-- The rows of format CLASSREQ8 (30_encoding R88), in the table's order. -/
def tableClassreq8 : List TableRow :=
  [
    ⟨.classreq8, 0xFF, 0x20, 1⟩, -- CLS_SET_LINE_CODING
    ⟨.classreq8, 0xFF, 0x22, 1⟩, -- CLS_SET_CONTROL_LINE_STATE
    ⟨.classreq8, 0x00, 0x00, 2⟩ ] -- CLS_OTHER

/-- The rows of format IRQ16 (30_encoding R88), in the table's order. -/
def tableIrq16 : List TableRow :=
  [
    ⟨.irq16, 0x0001, 0x0001, 1⟩, -- DISPATCH_RESET
    ⟨.irq16, 0x0003, 0x0002, 2⟩, -- DISPATCH_ERROR
    ⟨.irq16, 0x0021, 0x0020, 3⟩, -- DISPATCH_STALL
    ⟨.irq16, 0x0429, 0x0408, 4⟩, -- DISPATCH_TRN_IN
    ⟨.irq16, 0x0429, 0x0008, 4⟩ ] -- DISPATCH_TRN_OUT

/-- The rows of format OUTDONE8 (30_encoding R88), in the table's order. -/
def tableOutdone8 : List TableRow :=
  [
    ⟨.outdone8, 0xFF, 0x0D, 1⟩, -- EP0_SETUP
    ⟨.outdone8, 0x0F, 0x0D, 2⟩, -- EPX_SETUP
    ⟨.outdone8, 0xFF, 0x01, 1⟩, -- EP0_TOKEN_OUT
    ⟨.outdone8, 0xFF, 0x21, 1⟩, -- DATA_TOKEN_OUT
    ⟨.outdone8, 0x0F, 0x01, 2⟩, -- EPX_TOKEN_OUT
    ⟨.outdone8, 0x0F, 0x02, 1⟩, -- OUT_ACK
    ⟨.outdone8, 0x00, 0x00, 3⟩ ] -- OUT_OTHER_PID

/-- The rows of format PID4 (30_encoding R88), in the table's order. -/
def tablePid4 : List TableRow :=
  [
    ⟨.pid4, 0xF, 0x1, 1⟩, -- PID_OUT
    ⟨.pid4, 0xF, 0x9, 1⟩, -- PID_IN
    ⟨.pid4, 0xF, 0x5, 1⟩, -- PID_SOF
    ⟨.pid4, 0xF, 0xD, 1⟩, -- PID_SETUP
    ⟨.pid4, 0xF, 0x3, 1⟩, -- PID_DATA0
    ⟨.pid4, 0xF, 0xB, 1⟩, -- PID_DATA1
    ⟨.pid4, 0xF, 0x2, 1⟩, -- PID_ACK
    ⟨.pid4, 0xF, 0xA, 1⟩, -- PID_NAK
    ⟨.pid4, 0xF, 0xE, 1⟩ ] -- PID_STALL

/-- The rows of format CALL8 (30_encoding R88), in the table's order. -/
def tableCall8 : List TableRow :=
  [
    ⟨.call8, 0xFF, 0x00, 1⟩, -- INIT
    ⟨.call8, 0xFF, 0x01, 1⟩, -- READ_CHARACTER
    ⟨.call8, 0xFF, 0x02, 1⟩, -- WRITE_CHARACTER
    ⟨.call8, 0xFF, 0x03, 1⟩, -- WRITE_STRING
    ⟨.call8, 0xFF, 0x10, 1⟩, -- ARM_OUT
    ⟨.call8, 0xFF, 0x11, 1⟩, -- ARM_IN
    ⟨.call8, 0xFF, 0x12, 1⟩, -- STALL_IN
    ⟨.call8, 0xFF, 0x20, 1⟩, -- RX_CALLBACK
    ⟨.call8, 0xFF, 0x21, 1⟩ ] -- TX_DONE_CALLBACK

/-- The rows of format BUSEV8 (30_encoding R88), in the table's order. -/
def tableBusev8 : List TableRow :=
  [
    ⟨.busev8, 0xFF, 0x0D, 1⟩, -- BUS.SETUP
    ⟨.busev8, 0xFF, 0x01, 1⟩, -- BUS.OUT
    ⟨.busev8, 0xFF, 0x09, 1⟩, -- BUS.IN
    ⟨.busev8, 0xFF, 0x10, 1⟩, -- BUS.RESET
    ⟨.busev8, 0xFF, 0x11, 1⟩ ] -- BUS.ERROR

/-- The rows of a format. -/
def tableOf : Format → List TableRow
  | .setup64 => tableSetup64
  | .classreq8 => tableClassreq8
  | .irq16 => tableIrq16
  | .outdone8 => tableOutdone8
  | .pid4 => tablePid4
  | .call8 => tableCall8
  | .busev8 => tableBusev8

/-- The position of an operation's row among the rows of its format. -/
def Instr.rowIndex : Instr → Nat
  | .getDescriptorDevice .. => 0
  | .getDescriptorConfiguration .. => 1
  | .getDescriptorString .. => 2
  | .getDescriptorDeviceQualifier .. => 3
  | .getDescriptorOther .. => 4
  | .setAddress .. => 5
  | .setConfiguration .. => 6
  | .stdOther .. => 7
  | .classNodata .. => 8
  | .classData .. => 9
  | .vendorNodata .. => 10
  | .vendorData .. => 11
  | .reservedType .. => 12
  | .clsSetLineCoding .. => 0
  | .clsSetControlLineState .. => 1
  | .clsOther .. => 2
  | .dispatchReset .. => 0
  | .dispatchError .. => 1
  | .dispatchStall .. => 2
  | .dispatchTrnIn .. => 3
  | .dispatchTrnOut .. => 4
  | .ep0Setup => 0
  | .epxSetup .. => 1
  | .ep0TokenOut => 2
  | .dataTokenOut => 3
  | .epxTokenOut .. => 4
  | .outAck .. => 5
  | .outOtherPid .. => 6
  | .pidOut => 0
  | .pidIn => 1
  | .pidSof => 2
  | .pidSetup => 3
  | .pidData0 => 4
  | .pidData1 => 5
  | .pidAck => 6
  | .pidNak => 7
  | .pidStall => 8
  | .init => 0
  | .readCharacter => 1
  | .writeCharacter .. => 2
  | .writeString .. => 3
  | .armOut .. => 4
  | .armIn .. => 5
  | .stallIn .. => 6
  | .rxCallback .. => 7
  | .txDoneCallback => 8
  | .busSetup .. => 0
  | .busOut .. => 1
  | .busIn .. => 2
  | .busReset => 3
  | .busError .. => 4

/-- An operation's row of the opcode table. -/
def Instr.row (i : Instr) : Option TableRow := (tableOf i.format)[i.rowIndex]?

/-! ## The host's two questions -/

/-- The zero operand bytes that follow the first word of a record (log entry 4). -/
def operandZeros (f : Format) (code : Byte) : List Byte :=
  match f with
  | .setup64 => []
  | .irq16 => []
  | .outdone8 => []
  | .pid4 => []
  | .classreq8 => [0]
  | .call8 =>
    if code = 0x02 then [0]
    else if code = 0x10 then [0, 0]
    else if code = 0x11 then [0, 0, 0, 0, 0]
    else if code = 0x12 then [0]
    else []
  | .busev8 =>
    if code = 0x0D then [0, 0, 0, 0, 0, 0, 0, 0, 0, 0]
    else if code = 0x01 then [0, 0, 0]
    else if code = 0x09 then [0, 0]
    else if code = 0x11 then [0]
    else []

/-- The format an 8-bit word of the table is read in when nothing else says it (log entry 4): the five 8-bit formats
share code values, so a choice is made, the formats the outside world drives first. -/
def format8 (b : Byte) : Format :=
  if b ∈ ([0x0D, 0x01, 0x09, 0x10, 0x11] : List Byte) then .busev8
  else if b ∈ ([0x00, 0x02, 0x03, 0x12, 0x20, 0x21] : List Byte) then .call8
  else if b ∈ ([0x05, 0x0A, 0x0B, 0x0E] : List Byte) then .pid4
  else if b = 0x22 then .classreq8
  else if loNibble b ∈ ([0xD, 0x1, 0x2] : List (BitVec 4)) then .outdone8
  else if (hiNibble b).toNat < Config.nEp then .outdone8
  else .classreq8

/-- The format and record of a word of the opcode table, its bits numbered as the table numbers them. -/
def tableRecord (nbits w : Nat) : Option (Format × List Byte) :=
  let byte (k : Nat) : Byte := BitVec.ofNat 8 (w / 2 ^ (8 * k))
  if nbits = 64 then some (.setup64, [byte 0, byte 1, byte 2, byte 3, byte 4, byte 5, byte 6, byte 7])
  else if nbits = 16 then some (.irq16, [byte 0, byte 1])
  else if nbits = 8 then some (format8 (byte 0), byte 0 :: operandZeros (format8 (byte 0)) (byte 0))
  else if nbits = 4 then some (.pid4, [byte 0])
  else none

/-- The instruction the decoder reads from a word of the opcode table (log entry 4). -/
def decodeTableWord (nbits w : Nat) : Option Instr :=
  match tableRecord nbits w with
  | none => none
  | some (f, bs) =>
    match decode f bs with
    | .ok i => some i
    | .error _ => none

end Sys2Proof
end

