-- ==== Sys2Proof/Machine/State.lean ====
section
/-! DEFINITION. The state of the engine as plain data (10_state R18 to R46), the reasons a step can stop, and the state
after reset (10_state R45). -/

namespace Sys2Proof.Machine

/-- Who owns a descriptor (10_state R21): the processor side or the SIE. -/
inductive Owner where
  | cpu
  | sie
deriving DecidableEq, Repr

/-- One buffer descriptor (10_state R21 to R26). -/
structure BD where
  own    : Owner
  stall  : Bool
  dts    : Bool
  cnt    : Nat
  pid    : BitVec 4
  adr    : BitVec 16
  /-- Which side wrote the byte STAT last, hence which view of it is current (30_encoding R71; log entry 13). -/
  statBy : Owner
deriving DecidableEq, Repr

/-- The five descriptors that exist (10_state R20). -/
inductive Slot where
  | ep0Out
  | ep0In
  | ep1In
  | ep2Out
  | ep2In
deriving DecidableEq, Repr

/-- The Buffer Descriptor Table (10_state R20). -/
structure Bdt where
  ep0Out : BD
  ep0In  : BD
  ep1In  : BD
  ep2Out : BD
  ep2In  : BD
deriving DecidableEq, Repr

/-- One bit for each endpoint (10_state R28, R29). -/
structure PerEp where
  e0 : Bool
  e1 : Bool
  e2 : Bool
deriving DecidableEq, Repr

/-- An entry of USTATQ (10_state R34). -/
structure Completion where
  ep  : BitVec 4
  dir : Dir
deriving DecidableEq, Repr

/-- ControlTransferState (10_state R37). -/
inductive Ctrl where
  | awaitingRequest
  | awaitingPayload (pendingRequest : Byte)
deriving DecidableEq, Repr

/-- LINECODING, the seven bytes of the last accepted SET_LINE_CODING record (10_state R41). -/
structure LineCoding where
  b0 : Byte
  b1 : Byte
  b2 : Byte
  b3 : Byte
  b4 : Byte
  b5 : Byte
  b6 : Byte
deriving DecidableEq, Repr

/-- A diagnostic record (10_state R42, 44_byte_stream R133). -/
inductive DiagRecord where
  | rxOverflow (k : Nat)
deriving DecidableEq, Repr

/-- What the host observes of one bus event (45_sie_bus_agent R156). -/
inductive Answer where
  | none
  | ack
  | nak
  | stall
  | data (t : Bool) (bytes : List Byte)
deriving DecidableEq, Repr

/-- An arming operation with its operands (40_bdt_arming R89 to R91), as a continuation holds it. -/
inductive ArmOp where
  | armOut (ep : BitVec 4) (t : Bool)
  | armIn (ep : BitVec 4) (data : Option (List Byte)) (len : Nat) (t : Bool)
  | stallIn (ep : BitVec 4)
deriving DecidableEq, Repr

/-- What may be left of a dispatcher invocation at a hold point (10_state R19): arming operations, the end of
`out_complete(0)` (42_dispatcher R119), consuming the completion (R116) and the return (R120). -/
inductive IsrOp where
  | arm (a : ArmOp)
  | pktdisOff
  | dequeue
  | ret
deriving DecidableEq, Repr

/-- KISR, the interrupt continuation (10_state R19). -/
inductive KIsr where
  | inactive
  | active (rest : List IsrOp)
deriving DecidableEq, Repr

/-- KFG, the foreground continuation (10_state R19): `Idle`, or the pseudocode line FG stands before. `readN` are the
lines of 44_byte_stream R135, `writeN` those of R137 with the source bytes and the chunk offset; `arm` is the hold point
of an arming operation FG called. -/
inductive KFg where
  | idle
  | read1
  | read2
  | read3 (v : Byte)
  | read4 (v : Byte)
  | read5 (v : Byte)
  | read6 (v : Byte)
  | write1 (src : List Byte) (off : Nat)
  | write2 (src : List Byte) (off : Nat)
  | write3 (src : List Byte) (off n : Nat)
  | write4 (src : List Byte) (off n : Nat)
  | arm (a : ArmOp)
deriving DecidableEq, Repr

/-- One line of the program (30_encoding R87), the input that chooses the next agent step (log entry 2). -/
inductive Line where
  /-- A row of the operation map by its record: a bus event, the first atomic step of a call (log entry 17), or one row's
  rule applied directly. -/
  | word (f : Format) (bytes : List Byte)
  /-- `ISR`: one dispatcher invocation, up to its return or a hold whose condition is false. -/
  | isr
  /-- `ISR*`: invocations while the entry condition holds. -/
  | isrStar
  /-- `ISR.RUN`: continue the held invocation. -/
  | isrRun
  /-- `FG.READ`: a `read_character`, until it returns or comes to a hold whose condition is false. -/
  | fgRead
  /-- `FG.WRITE`: a `write_string`, likewise. -/
  | fgWrite (src : List Byte)
  /-- `FG.PUTC`: a `write_character`, likewise. -/
  | fgPutc (b : Byte)
  /-- `FG.RUN`: continue FG until its operation returns or comes to a hold whose condition is false. -/
  | fgRun
  /-- One atomic step of the processor side, whichever 60_exceptions R167 selects: FG's next line, or the ISR up to its
  next hold point, whether its condition holds or not (92_eei_decisions D17), so that a bus event may come at it. -/
  | proc
deriving DecidableEq, Repr

/-- The fault codes of 60_exceptions R159, and the reasons a step answers a fault: a step from a state whose FAULT is set
answers that code (R158; log entry 8). Safe: the model stops where a rule of the spec was broken. -/
inductive Fault where
  /-- F1: raised by `arm_in` with `len > P_MAXP` (40_bdt_arming R90). -/
  | armInOverlength
  /-- F2: raised by `arm_in` with `data` absent and `len > 0` (40_bdt_arming R90). -/
  | armInNodata
  /-- F3: raised by a rule that names a descriptor that does not exist (10_state R20, 60_exceptions R159). -/
  | noDescriptor
  /-- F4: raised by a processor-side write to a descriptor or buffer the SIE owns (60_exceptions R159). -/
  | ownershipRace
deriving DecidableEq, Repr

/-- The reasons a step is refused (60_exceptions R162). Safe: no state changes. -/
inductive Refusal where
  /-- Raised by an arm of `exec` whose instruction has no meaning yet; no arm is left with it. -/
  | notModelled (mnemonic : String)
  /-- Raised by the decoder: a record that names no operation or breaks a host duty (R155, R162). -/
  | illFormed (e : DecodeError)
  /-- Raised by INIT: an ill-formed catalog or a parameter out of range (R162). -/
  | notLaunched
  /-- Raised by a line `ISR`, and by a row that would start an invocation, while IRQ = 0 (R111, R162). -/
  | isrNotReady
  /-- Raised by a line `ISR.RUN` while INISR = 0 (R162). -/
  | isrNotActive
  /-- Raised by a processor-side line, and by a row that would start an invocation, while INISR = 1 (R121, R162). -/
  | isrActive
  /-- Raised by a line of FG while the ISR's entry condition holds (R162, R167). -/
  | isrPending
  /-- Raised by a row that would start an invocation while GIE = 0 (R111, R171). -/
  | interruptsMasked
  /-- Raised by a line of format IRQ16 whose word is not the one the registers show (R83; log entry 6). -/
  | wordNotShown
  /-- Raised by a call while KFG ≠ Idle (R162). -/
  | fgBusy
  /-- Raised by a line `FG.RUN` while KFG = Idle (R162). -/
  | fgIdle
deriving DecidableEq, Repr

/-- USB RAM (20_memory R47): the written bytes by address, in one canonical form (`Memory.wf` in Ops.lean). -/
abbrev Memory := List Host.Cell

/-- The state of the engine. -/
structure State where
  /-- The parameters (10_state R46), which no step changes (log entry 1). -/
  cfg        : Params
  /-- USB RAM (20_memory R47). -/
  ram        : Memory
  /-- The Buffer Descriptor Table (10_state R20). -/
  bdt        : Bdt
  /-- OUTTOG (10_state R28). -/
  outTog     : PerEp
  /-- INTOG (10_state R28). -/
  inTog      : PerEp
  /-- EPSTALL (10_state R29). -/
  epStall    : PerEp
  /-- ADDR (10_state R30). -/
  addr       : BitVec 7
  /-- RSTF (10_state R31). -/
  rstf       : Bool
  /-- STALLF (10_state R31). -/
  stallf     : Bool
  /-- UEIR (10_state R32, 30_encoding R76). -/
  ueir       : Byte
  /-- USTATQ, head first (10_state R34). -/
  ustatq     : List Completion
  /-- PKTDIS (10_state R35). -/
  pktdis     : Bool
  /-- GIE (10_state R36). -/
  gie        : Bool
  /-- INISR (10_state R36). -/
  inisr      : Bool
  /-- CTRL (10_state R37). -/
  ctrl       : Ctrl
  /-- PENDADDR (10_state R38). -/
  pendAddr   : Option (BitVec 7)
  /-- RXBUF (10_state R39). -/
  rxbuf      : List Byte
  /-- RD (10_state R39). -/
  rd         : Nat
  /-- WR (10_state R39). -/
  wr         : Nat
  /-- OCC (10_state R39). -/
  occ        : BitVec 8
  /-- TXREADY (10_state R40). -/
  txReady    : Bool
  /-- LINECODING (10_state R41). -/
  lineCoding : LineCoding
  /-- DIAG, oldest first (10_state R42). -/
  diag       : List DiagRecord
  /-- FAULT (10_state R42). -/
  fault      : Option Fault
  /-- KFG (10_state R19). -/
  kfg        : KFg
  /-- KISR (10_state R19). -/
  kisr       : KIsr
  /-- The model's own: the program lines still to come (log entry 2). -/
  feed       : List Line
  /-- The model's own: the answers of the bus events so far, oldest first (45_sie_bus_agent R156; log entry 16). -/
  answers    : List Answer
  /-- The model's own: the bytes `read_character` returned, oldest first (log entry 16). -/
  returned   : List Byte
  /-- The model's own: how many free values have been used (log entry 11). -/
  free       : Nat
deriving DecidableEq, Repr

/-- A descriptor as the launch state has it (10_state R45); its `pid` holds no value there: DESIGN CHOICE 0 (log
entry 10). -/
def BD.launch (own : Owner) (cnt : Nat) (adr : BitVec 16) : BD :=
  { own := own, stall := false, dts := false, cnt := cnt, pid := 0, adr := adr, statBy := .cpu }

/-- The launch state of 10_state R45 for given parameters. RXBUF, LINECODING and `pid` hold no value there: DESIGN CHOICE
0 (log entry 10); USB RAM lists nothing (log entry 9). -/
def State.launch (c : Params) : State :=
  { cfg := c,
    ram := [],
    bdt :=
      { ep0Out := BD.launch .sie Config.maxP c.bufAddr.ep0Out,
        ep0In := BD.launch .cpu 0 c.bufAddr.ep0In,
        ep1In := BD.launch .cpu 0 c.bufAddr.ep1In,
        ep2Out := BD.launch .sie Config.maxP c.bufAddr.ep2Out,
        ep2In := BD.launch .cpu 0 c.bufAddr.ep2In },
    outTog := ⟨false, false, false⟩,
    inTog := ⟨false, false, false⟩,
    epStall := ⟨false, false, false⟩,
    addr := 0,
    rstf := false,
    stallf := false,
    ueir := 0,
    ustatq := [],
    pktdis := false,
    gie := true,
    inisr := false,
    ctrl := .awaitingRequest,
    pendAddr := none,
    rxbuf := List.replicate c.rxCap 0,
    rd := 0,
    wr := 0,
    occ := 0,
    txReady := true,
    lineCoding := ⟨0, 0, 0, 0, 0, 0, 0⟩,
    diag := [],
    fault := none,
    kfg := .idle,
    kisr := .inactive,
    feed := [],
    answers := [],
    returned := [],
    free := 0 }

/-- The machine right after reset: the launch state of 10_state R45 (log entry 26) with the parameter fixture of
95_test_vectors (DESIGN CHOICE, log entry 1). -/
def State.reset : State := State.launch Config.fixture

end Sys2Proof.Machine
end

