-- ==== Sys2Proof/Machine/Ops.lean ====
section
/-! DEFINITION. The named operations over USB RAM, the descriptor table and the per-endpoint bits, the result of an
arming operation, recording a fault (60_exceptions R158), and taking and returning from the interrupt (R169, R170). -/

namespace Sys2Proof.Machine

/-! ## USB RAM (20_memory R47, R52) -/

/-- What a byte of USB RAM reads as while nothing has written it. DESIGN CHOICE (log entry 9): 0. -/
def Memory.unlisted : Byte := 0

/-- The canonical form: addresses strictly rising, no listed byte equal to what an unlisted address reads as. -/
def Memory.wf : Memory → Bool
  | [] => true
  | (a, b) :: m => b != Memory.unlisted && (m.all fun c => decide (a < c.1)) && Memory.wf m

/-- The byte at an address. -/
def Memory.get : Memory → Nat → Byte
  | [], _ => Memory.unlisted
  | (a, b) :: m, k => if k = a then b else Memory.get m k

/-- Put a listed byte before a canonical tail, or leave it out. -/
def Memory.cons (k : Nat) (v : Byte) (m : Memory) : Memory := if v = Memory.unlisted then m else (k, v) :: m

/-- Write one byte, keeping the canonical form. -/
def Memory.set : Memory → Nat → Byte → Memory
  | [], k, v => Memory.cons k v []
  | (a, b) :: m, k, v =>
    if k < a then Memory.cons k v ((a, b) :: m)
    else if k = a then Memory.cons k v m
    else (a, b) :: Memory.set m k v

/-- The address of byte `i` of a buffer; a sum past 0xFFFF wraps (log entry 12). -/
def bufAddr (adr : BitVec 16) (i : Nat) : Nat := (adr + BitVec.ofNat 16 i).toNat

/-- `MemRead(addr, n)` (00_scope section 6). -/
def memRead (m : Memory) (adr : BitVec 16) (n : Nat) : List Byte :=
  (List.range n).map fun i => m.get (bufAddr adr i)

/-- `MemWrite(addr, len(s), s)` (00_scope section 6), the first byte at `adr + i`. -/
def memWriteFrom (m : Memory) (adr : BitVec 16) : Nat → List Byte → Memory
  | _, [] => m
  | i, b :: bs => memWriteFrom (m.set (bufAddr adr i) b) adr (i + 1) bs

/-- `MemWrite(addr, len(s), s)` (00_scope section 6). -/
def memWrite (m : Memory) (adr : BitVec 16) (s : List Byte) : Memory := memWriteFrom m adr 0 s

/-! ## The endpoint table and the descriptor table (10_state R20, R27) -/

/-- The row of `EPCFG` for an endpoint. -/
def epCfgOf (ep : BitVec 4) : Option EpCfg := Config.epCfg.find? fun r => r.ep == ep

/-- Whether a direction of an endpoint is enabled (10_state R27). -/
def dirEnabled (ep : BitVec 4) (dir : Dir) : Bool :=
  match epCfgOf ep with
  | none => false
  | some r => match dir with | .out => r.outDir | .inn => r.inDir

/-- The registered OUT callback of an endpoint (10_state R27). -/
def outCallback (ep : BitVec 4) : Option OutCallback := (epCfgOf ep).bind (·.outCb)

/-- The registered IN callback of an endpoint (10_state R27). -/
def inCallback (ep : BitVec 4) : Option InCallback := (epCfgOf ep).bind (·.inCb)

/-- The descriptor `bd[ep][dir]`, if it exists (10_state R20). -/
def slotOf (ep : BitVec 4) : Dir → Option Slot
  | .out => if ep = 0 then some .ep0Out else if ep = Config.epData then some .ep2Out else none
  | .inn =>
    if ep = 0 then some .ep0In
    else if ep = Config.epNotify then some .ep1In
    else if ep = Config.epData then some .ep2In
    else none

/-- Read a descriptor. -/
def State.bd (s : State) : Slot → BD
  | .ep0Out => s.bdt.ep0Out
  | .ep0In => s.bdt.ep0In
  | .ep1In => s.bdt.ep1In
  | .ep2Out => s.bdt.ep2Out
  | .ep2In => s.bdt.ep2In

/-- Write a descriptor. -/
def State.setBd (s : State) (sl : Slot) (b : BD) : State :=
  match sl with
  | .ep0Out => { s with bdt := { s.bdt with ep0Out := b } }
  | .ep0In => { s with bdt := { s.bdt with ep0In := b } }
  | .ep1In => { s with bdt := { s.bdt with ep1In := b } }
  | .ep2Out => { s with bdt := { s.bdt with ep2Out := b } }
  | .ep2In => { s with bdt := { s.bdt with ep2In := b } }

/-- Write USB RAM. -/
def State.setRam (s : State) (m : Memory) : State := { s with ram := m }

/-- Count the free values used so far (log entry 11). -/
def State.setFree (s : State) (n : Nat) : State := { s with free := n }

/-- The bit of an endpoint; endpoints the device lacks have none. -/
def PerEp.get (p : PerEp) (ep : BitVec 4) : Bool :=
  if ep = 0 then p.e0 else if ep = 1 then p.e1 else if ep = 2 then p.e2 else false

def PerEp.set (p : PerEp) (ep : BitVec 4) (b : Bool) : PerEp :=
  if ep = 0 then { p with e0 := b } else if ep = 1 then { p with e1 := b } else if ep = 2 then { p with e2 := b } else p

/-! ## Processor-side writes and fault F4 (60_exceptions R159, R160) -/

/-- A processor-side write to the fields of a descriptor: F4 while the SIE owns it (60_exceptions R159, 20_memory R55). -/
def cpuWriteBd (sl : Slot) (f : BD → BD) (s : State) : Except Fault State :=
  match (s.bd sl).own with
  | .sie => .error .ownershipRace
  | .cpu => .ok (s.setBd sl (f (s.bd sl)))

/-- A processor-side write to a descriptor's packet buffer: F4 while the SIE owns it (60_exceptions R159). -/
def cpuWriteBuf (sl : Slot) (d : List Byte) (s : State) : Except Fault State :=
  match (s.bd sl).own with
  | .sie => .error .ownershipRace
  | .cpu => .ok (s.setRam (memWrite s.ram (s.bd sl).adr d))

/-- What an arming operation does in one step of its agent (60_exceptions R158). -/
inductive ArmRes where
  | done (s : State)
  | hold
  | raised (c : Fault)
deriving DecidableEq, Repr

/-- The result of the writes an arming operation makes after its hold. -/
def ArmRes.ofWrite : Except Fault State → ArmRes
  | .ok s => .done s
  | .error c => .raised c

/-! ## Faults (60_exceptions R158) -/

/-- `raise Fault(code)` in the state just before the faulting step: FAULT takes the code if it holds none (R158). -/
def State.raise (s : State) (c : Fault) : State :=
  { s with fault := match s.fault with | none => some c | some c' => some c' }

/-! ## Interrupt entry and return (60_exceptions R169, R170) -/

/-- ISR entry (42_dispatcher R111): INISR is set and KISR holds the invocation, of which the return is left at its end.
Nothing is saved in memory; KFG and GIE keep their values (60_exceptions R169). -/
def State.enterIsr (s : State) : State := { s with inisr := true, kisr := .active [.ret] }

/-- ISR return (42_dispatcher R120, 60_exceptions R170). -/
def State.leaveIsr (s : State) : State := { s with inisr := false, kisr := .inactive }

/-- `DI` (60_exceptions R171). -/
def State.di (s : State) : State := { s with gie := false }

/-- `EI` (60_exceptions R171). -/
def State.ei (s : State) : State := { s with gie := true }

/-- Record the answer of a bus event (45_sie_bus_agent R156). -/
def State.answer (s : State) (a : Answer) : State := { s with answers := s.answers ++ [a] }

/-- The same program, some lines further. -/
def State.setFeed (s : State) (l : List Line) : State := { s with feed := l }

end Sys2Proof.Machine
end

