-- ==== Sys2Proof/Machine/Operands.lean ====
section
/-! DEFINITION. The operand forms the rules compute: response lengths and bytes of GET_DESCRIPTOR (41_control_transfer
R97 to R99), the address of SET_ADDRESS (R102), the bytes `arm_in` copies (40_bdt_arming R90), chunks of `write_string`
(44_byte_stream R137, R138), the line-coding record (30_encoding R80), the well-formedness of the parameters
(60_exceptions R162). -/

namespace Sys2Proof.Machine

/-! ## The catalog (10_state R43) -/

/-- The descriptors of a configuration in declared order, with no gaps (30_encoding R79). -/
def confBlob (c : ConfigDesc) : List Byte :=
  c.header ++ (c.ifaces.map fun i => i.iface ++ i.subs.flatten).flatten

/-- The full string descriptor `[2 + len, 0x03] ++ data` (30_encoding R78). -/
def stringDesc (d : List Byte) : List Byte := BitVec.ofNat 8 (2 + d.length) :: 0x03 :: d

/-- A well-formed catalog (10_state R43; log entry 15). -/
def catalogWf (c : Catalog) : Bool :=
  c.dev.length == Config.devLen
    && !c.confs.isEmpty
    && (c.confs.all fun k => k.header.length == 9 && decide ((confBlob k).length ≤ 65535))
    && !c.strs.isEmpty
    && (c.strs.all fun d => decide (d.length ≤ 253))

/-- Two packet buffers of P_MAXP bytes share no address (00_scope R17). -/
def disjointBufs (a b : BitVec 16) : Bool := decide (Config.maxP ≤ (a - b).toNat) && decide (Config.maxP ≤ (b - a).toNat)

/-- The five packet buffers are pairwise disjoint (00_scope R17). -/
def bufAddrsWf (b : BufAddrs) : Bool :=
  disjointBufs b.ep0Out b.ep0In && disjointBufs b.ep0Out b.ep1In && disjointBufs b.ep0Out b.ep2Out
    && disjointBufs b.ep0Out b.ep2In && disjointBufs b.ep0In b.ep1In && disjointBufs b.ep0In b.ep2Out
    && disjointBufs b.ep0In b.ep2In && disjointBufs b.ep1In b.ep2Out && disjointBufs b.ep1In b.ep2In
    && disjointBufs b.ep2Out b.ep2In

/-- Parameters with which the model is launched (60_exceptions R162): P_RXCAP in 1..255, P_USTAT_DEPTH at least 1, a
well-formed catalog, disjoint packet buffers. -/
def paramsWf (c : Params) : Bool :=
  decide (1 ≤ c.rxCap) && decide (c.rxCap ≤ 255) && decide (1 ≤ c.ustatDepth) && catalogWf c.catalog && bufAddrsWf c.bufAddr

/-- P_BUFADDR of a descriptor (00_scope R17). -/
def paramAddr (c : Params) : Slot → BitVec 16
  | .ep0Out => c.bufAddr.ep0Out
  | .ep0In => c.bufAddr.ep0In
  | .ep1In => c.bufAddr.ep1In
  | .ep2Out => c.bufAddr.ep2Out
  | .ep2In => c.bufAddr.ep2In

/-! ## Response bytes -/

/-- DEVICE: the first `min(wLength, P_DEVLEN)` bytes are sent (41_control_transfer R97). -/
def deviceLen (wLength : BitVec 16) : Nat := min wLength.toNat Config.devLen

/-- CONFIGURATION and STRING: `min(wLength, P_MAXP, total)` bytes are sent (41_control_transfer R98, R99). -/
def respLen (wLength : BitVec 16) (total : List Byte) : Nat := min (min wLength.toNat Config.maxP) total.length

/-- SET_ADDRESS: the address is `wValue[6:0]` (41_control_transfer R102). -/
def requestedAddress (wValue : BitVec 16) : BitVec 7 := wValue.extractLsb' 0 7

/-! ## `arm_in` -/

/-- The bytes `arm_in` copies: `data[0..len)`; a position at which `data` has no byte gets a free value (log entry 11),
`k` being how many have been used before. -/
def armBytes (data : List Byte) (len k : Nat) : List Byte :=
  data.take len ++ (List.range (len - data.length)).map fun i => Config.freeByte (k + i)

/-! ## `write_string` (44_byte_stream R137, R138) -/

/-- The size of the chunk at offset `off` of a string of `total` bytes: `min(L - off, P_MAXP)`. -/
def chunkLen (total off : Nat) : Nat := min (total - off) Config.maxP

/-- The bytes of the chunk at offset `off`. -/
def chunk (src : List Byte) (off n : Nat) : List Byte := (src.drop off).take n

/-! ## Line coding (30_encoding R80, 43_class_requests R125) -/

/-- The record in a payload: its first seven bytes, if it has seven. -/
def LineCoding.ofPayload : List Byte → Option LineCoding
  | b0 :: b1 :: b2 :: b3 :: b4 :: b5 :: b6 :: _ => some ⟨b0, b1, b2, b3, b4, b5, b6⟩
  | _ => none

def LineCoding.bytes (l : LineCoding) : List Byte := [l.b0, l.b1, l.b2, l.b3, l.b4, l.b5, l.b6]

/-- `le32` of four bytes (20_memory R50). -/
def le32 (b0 b1 b2 b3 : Byte) : BitVec 32 := b3 ++ b2 ++ b1 ++ b0

/-- `dwDTERate`, bits per second (30_encoding R80). -/
def LineCoding.dteRate (l : LineCoding) : BitVec 32 := le32 l.b0 l.b1 l.b2 l.b3

/-- `bCharFormat` (30_encoding R80). -/
def LineCoding.charFormat (l : LineCoding) : Byte := l.b4

/-- `bParityType` (30_encoding R80). -/
def LineCoding.parityType (l : LineCoding) : Byte := l.b5

/-- `bDataBits` (30_encoding R80). -/
def LineCoding.dataBits (l : LineCoding) : Byte := l.b6

/-! ## Reading a SETUP packet back -/

/-- The SETUP packet in a buffer: `MemRead(adr, 8)` (41_control_transfer R94). -/
def readSetup (m : Memory) (adr : BitVec 16) : SetupPkt :=
  { p0 := m.get (bufAddr adr 0), p1 := m.get (bufAddr adr 1), p2 := m.get (bufAddr adr 2), p3 := m.get (bufAddr adr 3),
    p4 := m.get (bufAddr adr 4), p5 := m.get (bufAddr adr 5), p6 := m.get (bufAddr adr 6), p7 := m.get (bufAddr adr 7) }

end Sys2Proof.Machine
end

