-- ==== Sys2Proof/Machine/Flags.lean ====
section
/-! DEFINITION. The flags and the register views of the SIE: UIR, UIE, UEIR, UEIE, USTAT, UCON, UADDR, UEPn, the
descriptor bytes STAT, CNT, ADRL, ADRH and their two views (30_encoding R70 to R77), the request line (10_state R33) and
the ISR's entry condition (42_dispatcher R111). -/

namespace Sys2Proof.Machine

/-- ERRF (10_state R31). -/
def State.errf (s : State) : Bool := s.ueir != 0

/-- TRNF (10_state R31). -/
def State.trnf (s : State) : Bool := !s.ustatq.isEmpty

/-- IRQ (10_state R33). -/
def State.irq (s : State) : Bool := s.rstf || s.errf || s.stallf || s.trnf

/-- The ISR's entry condition (42_dispatcher R111). -/
def State.isrReady (s : State) : Bool := s.irq && s.gie && !s.inisr

/-- UIR (30_encoding R75). -/
def State.uir (s : State) : Byte := uirByte s.rstf s.errf s.trnf s.stallf

/-- UIE, constant (30_encoding R75, 10_state R33). -/
def uie : Byte := 0b00101011

/-- UEIE, constant (30_encoding R76). -/
def ueie : Byte := 0b10011111

/-- USTAT: the head of USTATQ, 0 when empty (30_encoding R74, R83). -/
def State.ustat (s : State) : Byte :=
  match s.ustatq with
  | [] => 0
  | c :: _ => ustatByte c.dir c.ep

/-- UADDR (30_encoding R77). -/
def State.uaddr (s : State) : Byte := addressByte s.addr

/-- UCON: bit 4 is PKTDIS; the other bits are outside the engine's rules (30_encoding R77) and 93_implementation_defined U8 does not
list them among those that read 0. DESIGN CHOICE (log entry 29): they are free values. -/
def State.ucon (s : State) : Byte :=
  (Config.uconOther s.free &&& 0b11101111) ||| (0#3 ++ BitVec.ofBool s.pktdis ++ 0#4 : BitVec 8)

/-- UEP0 (30_encoding R77): handshake, OUT and IN enabled, SETUP accepted. -/
def State.uep0 (s : State) : Byte := 0b00010110 ||| bitByte s.epStall.e0

/-- UEP1 (30_encoding R77): handshake and IN enabled, SETUP not accepted. -/
def State.uep1 (s : State) : Byte := 0b00011010 ||| bitByte s.epStall.e1

/-- UEP2 (30_encoding R77): handshake, OUT and IN enabled, SETUP not accepted. -/
def State.uep2 (s : State) : Byte := 0b00011110 ||| bitByte s.epStall.e2

/-- The bit of an error kind in UEIR (30_encoding R76). -/
def ErrKind.mask : ErrKind → Byte
  | .pidef => 0b00000001
  | .crc5ef => 0b00000010
  | .crc16ef => 0b00000100
  | .dfn8ef => 0b00001000
  | .btoef => 0b00010000
  | .btsef => 0b10000000

/-! ## The descriptor as bytes (30_encoding R70, R71) -/

/-- `cnt` in its ten bits (30_encoding R70). -/
def BD.bc (b : BD) : BitVec 10 := BitVec.ofNat 10 b.cnt

/-- STAT as the processor side writes it (30_encoding R70): UOWN, DTS, KEN 0, INCDIS 0, DTSEN, BSTALL, BC98. -/
def BD.cpuStat (toggleCheck : Bool) (b : BD) : Byte :=
  (BitVec.ofBool (b.own == .sie) ++ BitVec.ofBool b.dts ++ 0#2 ++ BitVec.ofBool toggleCheck ++ BitVec.ofBool b.stall
    ++ b.bc.extractLsb' 8 2 : BitVec 8)

/-- STAT as the SIE writes it on a completion (30_encoding R70): UOWN, reserved 0, PID, BC98. -/
def BD.sieStat (b : BD) : Byte :=
  (BitVec.ofBool (b.own == .sie) ++ 0#1 ++ b.pid ++ b.bc.extractLsb' 8 2 : BitVec 8)

/-- The raw byte STAT: the view of the side that wrote it last (30_encoding R71; log entry 13). -/
def BD.stat (toggleCheck : Bool) (b : BD) : Byte :=
  match b.statBy with
  | .cpu => b.cpuStat toggleCheck
  | .sie => b.sieStat

/-- CNT: `cnt[7:0]` (30_encoding R70). -/
def BD.cntByte (b : BD) : Byte := b.bc.extractLsb' 0 8

/-- ADRL and ADRH (30_encoding R70). -/
def BD.adrl (b : BD) : Byte := loByte b.adr
def BD.adrh (b : BD) : Byte := hiByte b.adr

/-- The CPU view of a STAT byte (30_encoding R71). -/
structure CpuView where
  uown   : Bool
  dts    : Bool
  dtsen  : Bool
  bstall : Bool
  bc98   : BitVec 2
deriving DecidableEq, Repr

/-- The SIE view of a STAT byte (30_encoding R71). -/
structure SieView where
  uown : Bool
  pid  : BitVec 4
  bc98 : BitVec 2
deriving DecidableEq, Repr

/-- `cpuView(STAT)` (30_encoding R71). -/
def cpuView (stat : Byte) : CpuView :=
  { uown := stat.getLsbD 7, dts := stat.getLsbD 6, dtsen := stat.getLsbD 3, bstall := stat.getLsbD 2,
    bc98 := stat.extractLsb' 0 2 }

/-- `sieView(STAT)` (30_encoding R71). -/
def sieView (stat : Byte) : SieView :=
  { uown := stat.getLsbD 7, pid := stat.extractLsb' 2 4, bc98 := stat.extractLsb' 0 2 }

/-- The PID of an answer on the bus (30_encoding R72, R73; 45_sie_bus_agent R156); no handshake has none. -/
def Answer.pid : Answer → Option (BitVec 4)
  | .none => Option.none
  | .ack => some Pid.ack
  | .nak => some Pid.nak
  | .stall => some Pid.stall
  | .data t _ => some (Pid.ofToggle t)

/-- The class of an OUT-direction completion's PID (30_encoding R72). -/
inductive PidClass where
  | tokenOut
  | handshakeAck
  | tokenSetup
  | other
deriving DecidableEq, Repr

/-- `class(pid)` (30_encoding R72, 42_dispatcher R118). -/
def pidClass (pid : BitVec 4) : PidClass :=
  if pid = Pid.out then .tokenOut
  else if pid = Pid.ack then .handshakeAck
  else if pid = Pid.setup then .tokenSetup
  else .other

end Sys2Proof.Machine
end

