-- ==== Sys2Proof/Machine/Bus.lean ====
section
/-! DEFINITION. The BUS agent: the SIE and the host (45_sie_bus_agent R144 to R157). Every event is one atomic step and
yields one answer (R156). -/

namespace Sys2Proof.Machine

/-- Whether USTATQ has no room for another completion (45_sie_bus_agent R145). -/
def State.queueFull (s : State) : Bool := decide (s.cfg.ustatDepth ≤ s.ustatq.length)

/-- The SIE's descriptor writes of a reception: `cnt`, `pid`, `own` last (45_sie_bus_agent R147, R149). -/
def receivedBd (n : Nat) (pid : BitVec 4) (b : BD) : BD := { b with cnt := n, pid := pid, own := .cpu, statBy := .sie }

/-- The SIE's descriptor writes of a transmission (45_sie_bus_agent R151). -/
def sentBd (b : BD) : BD := { b with pid := Pid.inn, own := .cpu, statBy := .sie }

/-- The completion of a reception: the buffer, the descriptor, then the entry of USTATQ (70_reset R182). -/
def receive (sl : Slot) (c : Completion) (pid : BitVec 4) (d : List Byte) (s : State) : State :=
  let s1 := s.setRam (memWrite s.ram (s.bd sl).adr d)
  let s2 := s1.setBd sl (receivedBd d.length pid (s.bd sl))
  { s2 with ustatq := s.ustatq ++ [c] }

/-- The completion of a transmission (45_sie_bus_agent R151). -/
def transmit (sl : Slot) (c : Completion) (s : State) : State :=
  { s.setBd sl (sentBd (s.bd sl)) with ustatq := s.ustatq ++ [c] }

/-- A STALL handshake on an endpoint (45_sie_bus_agent R152). -/
def stallHandshake (ep : BitVec 4) (s : State) : State := { s with stallf := true, epStall := s.epStall.set ep true }

/-- `BUS.SETUP` past the address filter (45_sie_bus_agent R145, R147, R148). -/
def busSetupStep (ep : BitVec 4) (p : SetupPkt) (s : State) : State :=
  if ep = 0 then
    if s.pktdis then s.answer .none
    else
      match (s.bd .ep0Out).own with
      | .cpu => s.answer .none
      | .sie =>
        if s.queueFull then s.answer .none
        else { receive .ep0Out ⟨0, .out⟩ Pid.setup p.bytes s with pktdis := true }.answer .ack
  else s.answer .none

/-- `BUS.OUT` on an existing, enabled descriptor past the filters for address, endpoint and packet processing
(45_sie_bus_agent R145, R149, R150; log entry 14). -/
def busOutStep (ep : BitVec 4) (sl : Slot) (t : Bool) (d : List Byte) (s : State) : State :=
  match (s.bd sl).own with
  | .cpu => s.answer .nak
  | .sie =>
    if (s.bd sl).stall then (stallHandshake ep s).answer .stall
    else if s.cfg.toggleCheck && t != (s.bd sl).dts then s.answer .ack
    else if s.queueFull then s.answer .nak
    else (receive sl ⟨ep, .out⟩ Pid.out d s).answer .ack

/-- `BUS.IN` on an existing, enabled descriptor past the filters for address, endpoint and packet processing
(45_sie_bus_agent R145, R151 to R153). -/
def busInStep (ep : BitVec 4) (sl : Slot) (s : State) : State :=
  match (s.bd sl).own with
  | .cpu => s.answer .nak
  | .sie =>
    if (s.bd sl).stall then (stallHandshake ep s).answer .stall
    else if s.queueFull then s.answer .nak
    else (transmit sl ⟨ep, .inn⟩ s).answer (.data (s.bd sl).dts (memRead s.ram (s.bd sl).adr (s.bd sl).cnt))

/-! ## The meanings -/

/-- BUS.SETUP (45_sie_bus_agent R145, R147, R148). -/
def execBusSetup (a : BitVec 7) (ep : BitVec 4) (p : SetupPkt) (s : State) : Host.Outcome State Fault Refusal :=
  if a = s.addr then .next (busSetupStep ep p s) else .next (s.answer .none)

/-- BUS.OUT (45_sie_bus_agent R145, R149, R150). -/
def execBusOut (a : BitVec 7) (ep : BitVec 4) (t : Bool) (d : List Byte) (s : State) :
    Host.Outcome State Fault Refusal :=
  if a = s.addr then
    match slotOf ep .out with
    | none => .next (s.answer .none)
    | some sl => if s.pktdis then .next (s.answer .nak) else .next (busOutStep ep sl t d s)
  else .next (s.answer .none)

/-- BUS.IN (45_sie_bus_agent R145, R151 to R153). -/
def execBusIn (a : BitVec 7) (ep : BitVec 4) (s : State) : Host.Outcome State Fault Refusal :=
  if a = s.addr then
    match slotOf ep .inn with
    | none => .next (s.answer .none)
    | some sl => if s.pktdis then .next (s.answer .nak) else .next (busInStep ep sl s)
  else .next (s.answer .none)

/-- BUS.RESET (45_sie_bus_agent R146). -/
def execBusReset (s : State) : Host.Outcome State Fault Refusal :=
  .next ({ s with rstf := true, addr := if s.cfg.resetClearsAddr then 0 else s.addr }.answer .none)

/-- BUS.ERROR (45_sie_bus_agent R154). -/
def execBusError (k : ErrKind) (s : State) : Host.Outcome State Fault Refusal :=
  .next ({ s with ueir := s.ueir ||| ErrKind.mask k }.answer .none)

end Sys2Proof.Machine
end

