-- ==== Sys2Proof/Machine/Arming.lean ====
section
/-! DEFINITION. The buffer-descriptor arbiter: what `arm_out`, `arm_in` and `stall_in` do in one step of the agent that
called them (40_bdt_arming R89 to R93), and what is left of a dispatcher invocation run up to its next hold or its return
(10_state R19, 42_dispatcher R121). -/

namespace Sys2Proof.Machine

/-! ## The arming operations (40_bdt_arming) -/

/-- The descriptor `arm_out` leaves (40_bdt_arming R89). -/
def armedOut (t : Bool) (b : BD) : BD :=
  { b with cnt := Config.maxP, dts := t, stall := false, own := .sie, statBy := .cpu }

/-- The descriptor `arm_in` leaves (40_bdt_arming R90). -/
def armedIn (len : Nat) (t : Bool) (b : BD) : BD :=
  { b with cnt := len, dts := t, stall := false, own := .sie, statBy := .cpu }

/-- The descriptor `stall_in` leaves (40_bdt_arming R91): `dts` is unchanged. -/
def armedStall (b : BD) : BD := { b with cnt := 0, stall := true, own := .sie, statBy := .cpu }

/-- `arm_out(ep, t)` (40_bdt_arming R89): F3, then the hold, then the writes with `own` last. -/
def armOutRun (ep : BitVec 4) (t : Bool) (s : State) : ArmRes :=
  match slotOf ep .out with
  | none => .raised .noDescriptor
  | some sl =>
    match (s.bd sl).own with
    | .sie => .hold
    | .cpu => ArmRes.ofWrite (cpuWriteBd sl (armedOut t) s)

/-- The writes of `arm_in` after its hold (40_bdt_arming R90): the copy, omitted when `data` is absent, then the
descriptor. -/
def armInWrites (sl : Slot) (data : Option (List Byte)) (len : Nat) (t : Bool) (s : State) : Except Fault State :=
  match data with
  | none => cpuWriteBd sl (armedIn len t) s
  | some d =>
    match cpuWriteBuf sl (armBytes d len s.free) s with
    | .error c => .error c
    | .ok s1 => cpuWriteBd sl (armedIn len t) (s1.setFree (s.free + (len - d.length)))

/-- `arm_in(ep, data, len, t)` (40_bdt_arming R90): F1, F2, F3 in this order (60_exceptions R160), then the hold, then
the writes. -/
def armInRun (ep : BitVec 4) (data : Option (List Byte)) (len : Nat) (t : Bool) (s : State) : ArmRes :=
  if Config.maxP < len then .raised .armInOverlength
  else if data = none ∧ 0 < len then .raised .armInNodata
  else
    match slotOf ep .inn with
    | none => .raised .noDescriptor
    | some sl =>
      match (s.bd sl).own with
      | .sie => .hold
      | .cpu => ArmRes.ofWrite (armInWrites sl data len t s)

/-- `stall_in(ep)` (40_bdt_arming R91). -/
def stallInRun (ep : BitVec 4) (s : State) : ArmRes :=
  match slotOf ep .inn with
  | none => .raised .noDescriptor
  | some sl =>
    match (s.bd sl).own with
    | .sie => .hold
    | .cpu => ArmRes.ofWrite (cpuWriteBd sl armedStall s)

/-- An arming operation in one step of its agent. -/
def ArmOp.run : ArmOp → State → ArmRes
  | .armOut ep t, s => armOutRun ep t s
  | .armIn ep data len t, s => armInRun ep data len t s
  | .stallIn ep, s => stallInRun ep s

/-! ## What is left of an invocation (10_state R19, 42_dispatcher R116, R119 to R121)

An atomic step of the ISR ends at the next hold point, whether the condition there holds or not (92_eei_decisions D17); a
program line `ISR` or `ISR.RUN` takes such steps until a return or a hold whose condition is false (30_encoding R87). -/

/-- The ISR at the hold point of an arming operation: INISR is 1 and KISR keeps that operation and all that follows it
(10_state R19). -/
def State.atHold (a : ArmOp) (k : List IsrOp) (s : State) : State :=
  { s with inisr := true, kisr := .active (.arm a :: k) }

/-- One atomic step: up to the next hold point or the return. The checks of an arming operation stand before its hold
point (60_exceptions R160); a fault they raise leaves the state before this step, with FAULT (R158). -/
def segment (before : State) : List IsrOp → State → State
  | [], s => s
  | .ret :: _, s => s.leaveIsr
  | .pktdisOff :: k, s => segment before k { s with pktdis := false }
  | .dequeue :: k, s => segment before k { s with ustatq := s.ustatq.tail }
  | .arm a :: k, s =>
    match a.run s with
    | .raised c => before.raise c
    | .done _ => s.atHold a k
    | .hold => s.atHold a k

/-- Atomic steps with no bus event between them, up to the return or a hold whose condition is false. -/
def drive (before : State) : List IsrOp → State → State
  | [], s => s
  | .ret :: _, s => s.leaveIsr
  | .pktdisOff :: k, s => drive before k { s with pktdis := false }
  | .dequeue :: k, s => drive before k { s with ustatq := s.ustatq.tail }
  | .arm a :: k, s =>
    match a.run s with
    | .raised c => before.raise c
    | .done s1 => drive (s.atHold a k) k s1
    | .hold => s.atHold a k

/-- A rule of the ISR context: the state after its own writes, and the operations that follow them; or a fault. -/
abbrev Plan := Except Fault (State × List IsrOp)

/-- A rule's writes, its operations, then the rest of the invocation, up to the return or a hold whose condition is
false. -/
def runPlan (before : State) (p : Plan) (rest : List IsrOp) : Host.Outcome State Fault Refusal :=
  match p with
  | .error c => .next (before.raise c)
  | .ok (s1, ops) => .next (drive before (ops ++ rest) s1)

/-- A rule's writes, its operations, then the rest of the invocation, up to the next hold point. -/
def segmentPlan (before : State) (p : Plan) (rest : List IsrOp) : Host.Outcome State Fault Refusal :=
  match p with
  | .error c => .next (before.raise c)
  | .ok (s1, ops) => .next (segment before (ops ++ rest) s1)

/-- Why no invocation may start, unless IRQ = 1, GIE = 1 and INISR = 0 (42_dispatcher R111, 60_exceptions R171). -/
def State.entryRefusal (s : State) : Option Refusal :=
  if s.inisr then some .isrActive
  else if s.gie then (if s.irq then none else some .isrNotReady)
  else some .interruptsMasked

/-- An invocation (42_dispatcher R111, R120, R121): the entry condition, the entry, a rule, then the return. -/
def isrInvoke (plan : State → Plan) (s : State) : Host.Outcome State Fault Refusal :=
  match s.entryRefusal with
  | some r => .refused r
  | none => runPlan s (plan s.enterIsr) [.ret]

/-- A rule that runs in the ISR context: inside the invocation in progress, or, when none is, as an invocation that starts
at this rule, hence under the entry condition (log entry 6). -/
def isrRow (plan : State → Plan) (s : State) : Host.Outcome State Fault Refusal :=
  match s.kisr with
  | .active k => runPlan s (plan s) k
  | .inactive => isrInvoke plan s

/-- Continue the held invocation (30_encoding R87 `ISR.RUN`); with KISR `Inactive` nothing is left to do. -/
def isrResume (s : State) : Host.Outcome State Fault Refusal :=
  match s.kisr with
  | .inactive => .next s
  | .active k => runPlan s (.ok (s, [])) k

/-- One atomic step of the invocation in progress: from the hold point it stands at, if the condition there holds, up to
the next one or the return (92_eei_decisions D17). -/
def isrAtom (s : State) : State :=
  match s.kisr with
  | .inactive => s
  | .active (.arm a :: k) =>
    match a.run s with
    | .raised c => s.raise c
    | .done s1 => segment s k s1
    | .hold => s
  | .active k => segment s k s

end Sys2Proof.Machine
end

