-- ==== Sys2Proof/Machine/Init.lean ====
section
/-! DEFINITION. INIT, the engine's initialization (70_reset_and_hazards R176 to R180). -/

namespace Sys2Proof.Machine

/-- A descriptor as INIT sets it before its arms (70_reset R176): `pid` is not written (R180). -/
def initBd (adr : BitVec 16) (b : BD) : BD :=
  { b with own := .cpu, stall := false, dts := false, cnt := 0, adr := adr, statBy := .cpu }

/-- The assignments of INIT before its arms (70_reset R176). Packet buffers, RXBUF, LINECODING and `pid` are not written
(R180). -/
def initRegisters (s : State) : State :=
  { s with
    gie := false,
    bdt :=
      { ep0Out := initBd s.cfg.bufAddr.ep0Out s.bdt.ep0Out,
        ep0In := initBd s.cfg.bufAddr.ep0In s.bdt.ep0In,
        ep1In := initBd s.cfg.bufAddr.ep1In s.bdt.ep1In,
        ep2Out := initBd s.cfg.bufAddr.ep2Out s.bdt.ep2Out,
        ep2In := initBd s.cfg.bufAddr.ep2In s.bdt.ep2In },
    outTog := ⟨false, false, false⟩, inTog := ⟨false, false, false⟩, epStall := ⟨false, false, false⟩,
    addr := 0, rstf := false, stallf := false, ueir := 0, ustatq := [], pktdis := false,
    ctrl := .awaitingRequest, pendAddr := none,
    rd := 0, wr := 0, occ := 0, txReady := true,
    diag := [], fault := none }

/-- The last assignments of INIT (70_reset R176): the contexts, then `GIE <- 1`. -/
def initContexts (s : State) : State := { s.leaveIsr with kfg := .idle, gie := true }

/-- The two arms of INIT (70_reset R176): neither holds nor faults, for the descriptors have just been given to the CPU. -/
def initArms (s : State) : State := drive s [.arm (.armOut 0 false), .arm (.armOut Config.epData false)] s

/-- INIT (70_reset_and_hazards R176): refused unless the catalog is well-formed and every parameter is in range
(60_exceptions R162). -/
def execInit (s : State) : Host.Outcome State Fault Refusal :=
  if paramsWf s.cfg then .next (initContexts (initArms (initRegisters s))) else .refused .notLaunched

end Sys2Proof.Machine
end

