-- ==== Sys2Proof/Machine/ByteStream.lean ====
section
/-! DEFINITION. The byte stream: the receive ring and its callback, `read_character`, `write_string`, `write_character`,
the IN-completion callback (44_byte_stream R131 to R143), FG's atomic steps, and the CALL8 arming operations. -/

namespace Sys2Proof.Machine

/-! ## Receive side -/

/-- Store one byte (44_byte_stream R132). -/
def ringPush (b : Byte) (s : State) : State :=
  { s with rxbuf := s.rxbuf.set s.wr b, wr := (s.wr + 1) % s.cfg.rxCap, occ := s.occ + 1 }

/-- Append received bytes while there is room; how many were dropped (44_byte_stream R131 to R133). -/
def ringAppend : List Byte → State → State × Nat
  | [], s => (s, 0)
  | b :: d, s =>
    if s.occ.toNat < s.cfg.rxCap then ringAppend d (ringPush b s)
    else
      let (t, k) := ringAppend d s
      (t, k + 1)

/-- The diagnostic record of an overflow, one per callback that dropped bytes (44_byte_stream R133). -/
def emitOverflow (k : Nat) (s : State) : State :=
  if k = 0 then s else { s with diag := s.diag ++ [.rxOverflow k] }

/-- Everything `rx_callback` writes before its re-arm (44_byte_stream R131, R134). -/
def rxStore (d : List Byte) (s : State) : State :=
  let (s1, k) := ringAppend d s
  let s2 := emitOverflow k s1
  { s2 with outTog := s2.outTog.set Config.epData (!s2.outTog.get Config.epData) }

/-- `rx_callback(d, n)` (44_byte_stream R131). -/
def planRxCallback (d : List Byte) (s : State) : Plan :=
  .ok (rxStore d s, [.arm (.armOut Config.epData ((rxStore d s).outTog.get Config.epData))])

/-! ## Transmit side -/

/-- `tx_done_callback(ep)` (44_byte_stream R140). -/
def txDone (s : State) : State := { s with txReady := true }

def planTxDone (s : State) : Plan := .ok (txDone s, [])

/-! ## FG's atomic steps (44_byte_stream R135, R137) -/

/-- What one step of FG does: it moves, it holds at a busy-wait point, or it faults. -/
inductive FgRes where
  | moved (s : State)
  | held
  | raised (c : Fault)
deriving DecidableEq, Repr

/-- Line 1 of `read_character`: `hold until OCC ≠ 0`. -/
def fgRead1 (s : State) : FgRes := if s.occ = 0 then .held else .moved { s with kfg := .read2 }

/-- Line 2: `v <- RXBUF[RD]`. -/
def fgRead2 (s : State) : FgRes := .moved { s with kfg := .read3 (s.rxbuf.getD s.rd 0) }

/-- Line 3: `DI`. -/
def fgRead3 (v : Byte) (s : State) : FgRes := .moved { s.di with kfg := .read4 v }

/-- Line 4: the cursor and the counter. -/
def fgRead4 (v : Byte) (s : State) : FgRes :=
  .moved { s with rd := (s.rd + 1) % s.cfg.rxCap, occ := s.occ - 1, kfg := .read5 v }

/-- Line 5: `EI`. -/
def fgRead5 (v : Byte) (s : State) : FgRes := .moved { s.ei with kfg := .read6 v }

/-- Line 6: `return v`. -/
def fgRead6 (v : Byte) (s : State) : FgRes := .moved { s with returned := s.returned ++ [v], kfg := .idle }

/-- Line 1 of `write_string`: `hold until TXREADY = 1`. -/
def fgWrite1 (src : List Byte) (off : Nat) (s : State) : FgRes :=
  if s.txReady then .moved { s with kfg := .write2 src off } else .held

/-- Line 2: the chunk size, and `TXREADY <- 0` immediately before arming. -/
def fgWrite2 (src : List Byte) (off : Nat) (s : State) : FgRes :=
  .moved { s with txReady := false, kfg := .write3 src off (chunkLen src.length off) }

/-- Line 3: `arm_in(P_EP_DATA, s[off..off+n), n, INTOG[P_EP_DATA])`, with its hold. -/
def fgWrite3 (src : List Byte) (off n : Nat) (s : State) : FgRes :=
  match armInRun Config.epData (some (chunk src off n)) n (s.inTog.get Config.epData) s with
  | .done t => .moved { t with kfg := .write4 src off n }
  | .hold => .held
  | .raised c => .raised c

/-- Where `write_string` stands with `off` bytes sent: the loop's test, or the return. -/
def writeFrom (src : List Byte) (off : Nat) : KFg := if off < src.length then .write1 src off else .idle

/-- Line 4: the toggle and the offset, and the loop's test (44_byte_stream R141). -/
def fgWrite4 (src : List Byte) (off n : Nat) (s : State) : FgRes :=
  .moved { s with inTog := s.inTog.set Config.epData (!s.inTog.get Config.epData), kfg := writeFrom src (off + n) }

/-- An arming operation FG called (40_bdt_arming R93). -/
def fgArm (a : ArmOp) (s : State) : FgRes :=
  match a.run s with
  | .done t => .moved { t with kfg := .idle }
  | .hold => .held
  | .raised c => .raised c

/-- One atomic step of FG from its continuation (10_state R19). -/
def fgStep (s : State) : FgRes :=
  match s.kfg with
  | .idle => .held
  | .read1 => fgRead1 s
  | .read2 => fgRead2 s
  | .read3 v => fgRead3 v s
  | .read4 v => fgRead4 v s
  | .read5 v => fgRead5 v s
  | .read6 v => fgRead6 v s
  | .write1 src off => fgWrite1 src off s
  | .write2 src off => fgWrite2 src off s
  | .write3 src off n => fgWrite3 src off n s
  | .write4 src off n => fgWrite4 src off n s
  | .arm a => fgArm a s

/-- FG's step as an outcome; at a hold nothing changes, at a fault FAULT alone does (60_exceptions R158). -/
def fgOutcome (s : State) : Host.Outcome State Fault Refusal :=
  match fgStep s with
  | .moved t => .next t
  | .held => .next s
  | .raised c => .next (s.raise c)

/-- A call by the consumer (60_exceptions R162): refused while INISR = 1, while the ISR's entry condition holds, or while
KFG ≠ Idle; otherwise the operation starts and takes its first atomic step. A fault in that step leaves FG idle. -/
def fgCall (k : KFg) (s : State) : Host.Outcome State Fault Refusal :=
  if s.inisr then .refused .isrActive
  else if s.isrReady then .refused .isrPending
  else if s.kfg = .idle then
    match fgStep { s with kfg := k } with
    | .moved t => .next t
    | .held => .next { s with kfg := k }
    | .raised c => .next (s.raise c)
  else .refused .fgBusy

/-! ## The meanings of the CALL8 rows but INIT -/

/-- READ_CHARACTER (44_byte_stream R135): the call, up to line 1; the further lines are FG's further steps. -/
def execReadCharacter (s : State) : Host.Outcome State Fault Refusal := fgCall .read1 s

/-- WRITE_CHARACTER (44_byte_stream R139): `write_string([b])`. -/
def execWriteCharacter (b : Byte) (s : State) : Host.Outcome State Fault Refusal := fgCall (.write1 [b] 0) s

/-- WRITE_STRING (44_byte_stream R137): an empty string returns at once. -/
def execWriteString (src : List Byte) (s : State) : Host.Outcome State Fault Refusal := fgCall (writeFrom src 0) s

/-- An arming operation runs inside the agent that called it (40_bdt_arming R93): the ISR while INISR = 1, else FG. -/
def execArm (a : ArmOp) (s : State) : Host.Outcome State Fault Refusal :=
  if s.inisr then isrRow (fun t => .ok (t, [.arm a])) s else fgCall (.arm a) s

/-- ARM_OUT (40_bdt_arming R89). -/
def execArmOut (ep : BitVec 4) (t : Bool) (s : State) : Host.Outcome State Fault Refusal := execArm (.armOut ep t) s

/-- ARM_IN (40_bdt_arming R90). -/
def execArmIn (ep : BitVec 4) (data : Option (List Byte)) (len : BitVec 16) (t : Bool) (s : State) :
    Host.Outcome State Fault Refusal :=
  execArm (.armIn ep data len.toNat t) s

/-- STALL_IN (40_bdt_arming R91). -/
def execStallIn (ep : BitVec 4) (s : State) : Host.Outcome State Fault Refusal := execArm (.stallIn ep) s

/-- RX_CALLBACK (44_byte_stream R131), in the ISR context. -/
def execRxCallback (d : List Byte) (s : State) : Host.Outcome State Fault Refusal := isrRow (planRxCallback d) s

/-- TX_DONE_CALLBACK (44_byte_stream R140), in the ISR context. -/
def execTxDoneCallback (s : State) : Host.Outcome State Fault Refusal := isrRow planTxDone s

end Sys2Proof.Machine
end

