-- ==== Sys2Proof/Machine/ClassReq.lean ====
section
/-! DEFINITION. The class-request sub-state machine: the CLASSREQ8 rows, `process` and the payload rule
(43_class_requests R125 to R130). -/

namespace Sys2Proof.Machine

/-- SET_LINE_CODING (43_class_requests R125, R127): the first seven bytes of a payload that has them are kept. -/
def processSetLineCoding (payload : Option (List Byte)) (s : State) : State :=
  match payload.bind LineCoding.ofPayload with
  | none => s
  | some l => { s with lineCoding := l }

/-- SET_CONTROL_LINE_STATE (43_class_requests R125): accepted, not acted upon. -/
def processSetControlLineState (_payload : Option (List Byte)) (s : State) : State := s

/-- Every other request code (43_class_requests R128): the payload is ignored. -/
def processOther (_bRequest : Byte) (_payload : Option (List Byte)) (s : State) : State := s

/-- The rule of a CLASSREQ8 row; no other row is a CLASSREQ8 row. -/
def classReqEffect : Instr → State → State
  | .clsSetLineCoding payload, s => processSetLineCoding payload s
  | .clsSetControlLineState payload, s => processSetControlLineState payload s
  | .clsOther bRequest payload, s => processOther bRequest payload s
  | _, s => s

/-- `process(req, payload)` (43_class_requests R125), selected on `req` (30_encoding R84). -/
def process (req : Byte) (payload : Option (List Byte)) (s : State) : State :=
  classReqEffect (decodeClassReq req payload) s

/-- The zero-length acknowledgement with toggle 1, then the OUT re-arm with toggle 0 (43_class_requests R124, R126;
41_control_transfer R102, R103). -/
def acknowledge : List IsrOp := [.arm (.armIn 0 none 0 true), .arm (.armOut 0 false)]

/-- `class_payload(req, d, n)` (43_class_requests R126). -/
def planClassPayload (req : Byte) (d : List Byte) (s : State) : Plan :=
  .ok ({ process req (some d) s with ctrl := .awaitingRequest }, acknowledge)

/-- CLS_SET_LINE_CODING (43_class_requests R125, R127). -/
def execClsSetLineCoding (payload : Option (List Byte)) (s : State) : Host.Outcome State Fault Refusal :=
  .next (processSetLineCoding payload s)

/-- CLS_SET_CONTROL_LINE_STATE (43_class_requests R125). -/
def execClsSetControlLineState (payload : Option (List Byte)) (s : State) : Host.Outcome State Fault Refusal :=
  .next (processSetControlLineState payload s)

/-- CLS_OTHER (43_class_requests R128). -/
def execClsOther (bRequest : Byte) (payload : Option (List Byte)) (s : State) : Host.Outcome State Fault Refusal :=
  .next (processOther bRequest payload s)

end Sys2Proof.Machine
end

