-- ==== Sys2Proof/Machine/Control.lean ====
section
/-! DEFINITION. The control-transfer state machine of endpoint 0: the meaning of each SETUP64 row (41_control_transfer R94
to R107, 43_class_requests R123, R124). Every row begins with the decoder's `CTRL <- AwaitingRequest` (R94). -/

namespace Sys2Proof.Machine

/-- What `setup_decode` writes before it selects a row (41_control_transfer R94). -/
def setupBegin (s : State) : State := { s with ctrl := .awaitingRequest }

/-- `drop` (41_control_transfer R107). -/
def planDrop (s : State) : Plan := .ok (setupBegin s, [])

/-- A response of `n` bytes with toggle 1, then the OUT re-arm with toggle 0 (41_control_transfer R97 to R99). -/
def respond (data : List Byte) (n : Nat) : List IsrOp := [.arm (.armIn 0 (some data) n true), .arm (.armOut 0 false)]

/-- GET_DESCRIPTOR(DEVICE) (41_control_transfer R97). -/
def planDevice (wLength : BitVec 16) (s : State) : Plan :=
  .ok (setupBegin s, respond (s.cfg.catalog.dev.take (deviceLen wLength)) (deviceLen wLength))

/-- GET_DESCRIPTOR(CONFIGURATION) (41_control_transfer R98). -/
def planConfiguration (index : Byte) (wLength : BitVec 16) (s : State) : Plan :=
  match s.cfg.catalog.confs[index.toNat]? with
  | none => planDrop s
  | some c => .ok (setupBegin s, respond ((confBlob c).take (respLen wLength (confBlob c))) (respLen wLength (confBlob c)))

/-- GET_DESCRIPTOR(STRING) (41_control_transfer R99). -/
def planString (index : Byte) (wLength : BitVec 16) (s : State) : Plan :=
  match s.cfg.catalog.strs[index.toNat]? with
  | none => planDrop s
  | some d => .ok (setupBegin s, respond ((stringDesc d).take (respLen wLength (stringDesc d))) (respLen wLength (stringDesc d)))

/-- GET_DESCRIPTOR(DEVICE_QUALIFIER) (41_control_transfer R100). -/
def planDeviceQualifier (s : State) : Plan := .ok (setupBegin s, [.arm (.stallIn 0), .arm (.armOut 0 false)])

/-- `set_address` (41_control_transfer R102). DESIGN CHOICE (log entry 30): with an earlier acknowledgement still armed the
new address is latched before `arm_in` holds, as R102's pseudocode has it; R102's corner case also says that collecting the
earlier acknowledgement applies the earlier address. -/
def planSetAddress (wValue : BitVec 16) (s : State) : Plan :=
  .ok ({ setupBegin s with pendAddr := some (requestedAddress wValue) }, acknowledge)

/-- `set_configuration` (41_control_transfer R103). -/
def planSetConfiguration (s : State) : Plan := .ok (setupBegin s, acknowledge)

/-- A class or vendor request without data stage (43_class_requests R124). -/
def planClassNodata (bRequest : Byte) (s : State) : Plan := .ok (process bRequest none (setupBegin s), acknowledge)

/-- A class or vendor request with data stage (43_class_requests R123). -/
def planClassData (bRequest : Byte) (s : State) : Plan :=
  .ok ({ setupBegin s with ctrl := .awaitingPayload bRequest }, [.arm (.armOut 0 true)])

/-- The rule of the SETUP64 row a packet selects (41_control_transfer R94 to R106); no other row is a SETUP64 row. -/
def setupPlan : Instr → State → Plan
  | .getDescriptorDevice _ _ _ wLength, s => planDevice wLength s
  | .getDescriptorConfiguration _ index _ wLength, s => planConfiguration index wLength s
  | .getDescriptorString _ index _ wLength, s => planString index wLength s
  | .getDescriptorDeviceQualifier .., s => planDeviceQualifier s
  | .getDescriptorOther .., s => planDrop s
  | .setAddress _ wValue _ _, s => planSetAddress wValue s
  | .setConfiguration .., s => planSetConfiguration s
  | .stdOther .., s => planDrop s
  | .classNodata _ bRequest _ _, s => planClassNodata bRequest s
  | .classData _ bRequest _ _ _, s => planClassData bRequest s
  | .vendorNodata _ bRequest _ _, s => planClassNodata bRequest s
  | .vendorData _ bRequest _ _ _, s => planClassData bRequest s
  | .reservedType .., s => planDrop s
  | _, s => planDrop s

/-! ## The meanings -/

/-- GET_DESCRIPTOR_DEVICE (41_control_transfer R97); the index is not looked at. -/
def execGetDescriptorDevice (_h : ReqHead) (_index : Byte) (_wIndex wLength : BitVec 16) (s : State) :
    Host.Outcome State Fault Refusal :=
  isrRow (planDevice wLength) s

/-- GET_DESCRIPTOR_CONFIGURATION (41_control_transfer R98). -/
def execGetDescriptorConfiguration (_h : ReqHead) (index : Byte) (_wIndex wLength : BitVec 16) (s : State) :
    Host.Outcome State Fault Refusal :=
  isrRow (planConfiguration index wLength) s

/-- GET_DESCRIPTOR_STRING (41_control_transfer R99); the language id in `wIndex` is ignored. -/
def execGetDescriptorString (_h : ReqHead) (index : Byte) (_wIndex wLength : BitVec 16) (s : State) :
    Host.Outcome State Fault Refusal :=
  isrRow (planString index wLength) s

/-- GET_DESCRIPTOR_DEVICE_QUALIFIER (41_control_transfer R100). -/
def execGetDescriptorDeviceQualifier (_h : ReqHead) (_index : Byte) (_wIndex _wLength : BitVec 16) (s : State) :
    Host.Outcome State Fault Refusal :=
  isrRow planDeviceQualifier s

/-- GET_DESCRIPTOR_OTHER (41_control_transfer R101): dropped. -/
def execGetDescriptorOther (_h : ReqHead) (_dtype _index : Byte) (_wIndex _wLength : BitVec 16) (s : State) :
    Host.Outcome State Fault Refusal :=
  isrRow planDrop s

/-- SET_ADDRESS (41_control_transfer R102). -/
def execSetAddress (_h : ReqHead) (wValue _wIndex _wLength : BitVec 16) (s : State) : Host.Outcome State Fault Refusal :=
  isrRow (planSetAddress wValue) s

/-- SET_CONFIGURATION (41_control_transfer R103); the value is ignored. -/
def execSetConfiguration (_h : ReqHead) (_wValue _wIndex _wLength : BitVec 16) (s : State) :
    Host.Outcome State Fault Refusal :=
  isrRow planSetConfiguration s

/-- STD_OTHER (41_control_transfer R104): dropped. -/
def execStdOther (_h : ReqHead) (_bRequest : Byte) (_wValue _wIndex _wLength : BitVec 16) (s : State) :
    Host.Outcome State Fault Refusal :=
  isrRow planDrop s

/-- CLASS_NODATA (43_class_requests R124). -/
def execClassNodata (_h : ReqHead) (bRequest : Byte) (_wValue _wIndex : BitVec 16) (s : State) :
    Host.Outcome State Fault Refusal :=
  isrRow (planClassNodata bRequest) s

/-- CLASS_DATA (43_class_requests R123). -/
def execClassData (_h : ReqHead) (bRequest : Byte) (_wValue _wIndex _wLength : BitVec 16) (s : State) :
    Host.Outcome State Fault Refusal :=
  isrRow (planClassData bRequest) s

/-- VENDOR_NODATA (41_control_transfer R105, 43_class_requests R124): exactly the class path. -/
def execVendorNodata (_h : ReqHead) (bRequest : Byte) (_wValue _wIndex : BitVec 16) (s : State) :
    Host.Outcome State Fault Refusal :=
  isrRow (planClassNodata bRequest) s

/-- VENDOR_DATA (41_control_transfer R105, 43_class_requests R123): exactly the class path. -/
def execVendorData (_h : ReqHead) (bRequest : Byte) (_wValue _wIndex _wLength : BitVec 16) (s : State) :
    Host.Outcome State Fault Refusal :=
  isrRow (planClassData bRequest) s

/-- RESERVED_TYPE (41_control_transfer R106): dropped. -/
def execReservedType (_h : ReqHead) (_bRequest : Byte) (_wValue _wIndex _wLength : BitVec 16) (s : State) :
    Host.Outcome State Fault Refusal :=
  isrRow planDrop s

end Sys2Proof.Machine
end

