-- ==== Sys2Proof/Machine/Irq.lean ====
section
/-! DEFINITION. The endpoint interrupt dispatcher: the meanings of the IRQ16, OUTDONE8 and PID4 rows (42_dispatcher R111
to R122, 30_encoding R72, R83). -/

namespace Sys2Proof.Machine

/-! ## OUT-direction completions (42_dispatcher R118, R119) -/

/-- The end of `out_complete(ep)` (42_dispatcher R119): at endpoint 0 packet processing is enabled again, after the
handler's own operations. -/
def outEnd (endp : BitVec 4) : List IsrOp := if endp = 0 then [.pktdisOff] else []

/-- A handler of an OUT-direction completion with the end of `out_complete(ep)` behind it. -/
def outHandler (endp : BitVec 4) : Plan → Plan
  | .error c => .error c
  | .ok (s, ops) => .ok (s, ops ++ outEnd endp)

/-- The bytes of a completed OUT reception: `MemRead(bd.adr, bd.cnt)`. -/
def received (sl : Slot) (s : State) : List Byte := memRead s.ram (s.bd sl).adr (s.bd sl).cnt

/-- `setup_decode()` (41_control_transfer R94) on the packet in the EP0 OUT buffer. -/
def planSetupDecode (s : State) : Plan := setupPlan (decodeSetup (readSetup s.ram (s.bd .ep0Out).adr)) s

/-- `ep0_out()` (41_control_transfer R108). -/
def planEp0Out (s : State) : Plan :=
  match s.ctrl with
  | .awaitingPayload req => planClassPayload req (received .ep0Out s) s
  | .awaitingRequest => .ok (s, [.arm (.armOut 0 false)])

/-- A completion with no action (42_dispatcher R118). -/
def planNothing (s : State) : Plan := .ok (s, [])

def planEp0Setup (s : State) : Plan := outHandler 0 (planSetupDecode s)
def planEpxSetup (endp : BitVec 4) (s : State) : Plan := outHandler endp (planNothing s)
def planEp0TokenOut (s : State) : Plan := outHandler 0 (planEp0Out s)
def planDataTokenOut (s : State) : Plan := outHandler Config.epData (planRxCallback (received .ep2Out s) s)
def planEpxTokenOut (endp : BitVec 4) (s : State) : Plan := outHandler endp (planNothing s)
def planOutAck (endp : BitVec 4) (s : State) : Plan := outHandler endp (planNothing s)
def planOutOtherPid (endp : BitVec 4) (s : State) : Plan := outHandler endp (planNothing s)

/-- The rule of an OUTDONE8 row (42_dispatcher R118); no other row is an OUTDONE8 row. -/
def outDonePlan : Instr → State → Plan
  | .ep0Setup, s => planEp0Setup s
  | .epxSetup endp, s => planEpxSetup endp s
  | .ep0TokenOut, s => planEp0TokenOut s
  | .dataTokenOut, s => planDataTokenOut s
  | .epxTokenOut endp, s => planEpxTokenOut endp s
  | .outAck endp, s => planOutAck endp s
  | .outOtherPid endp _, s => planOutOtherPid endp s
  | _, s => planNothing s

/-! ## The dispatcher's checks (42_dispatcher R112 to R117) -/

/-- `on_reset()` (42_dispatcher R113). -/
def planOnReset (s : State) : Plan := .ok ({ s with rstf := false }, [])

/-- The release of one stalled endpoint's IN descriptor (42_dispatcher R115). -/
def releasedStall (b : BD) : BD := { b with stall := false, own := .cpu, statBy := .cpu }

/-- `on_stall()` for one endpoint (42_dispatcher R115). -/
def releaseEp (ep : BitVec 4) (sl : Slot) (s : State) : State :=
  if s.epStall.get ep then { s with epStall := s.epStall.set ep false }.setBd sl (releasedStall (s.bd sl)) else s

/-- `on_stall()` (42_dispatcher R115): every endpoint with its stall condition set is released. -/
def onStall (s : State) : State :=
  releaseEp 2 .ep2In (releaseEp 1 .ep1In (releaseEp 0 .ep0In { s with stallf := false }))

def planOnStall (s : State) : Plan := .ok (onStall s, [])

/-- `in_complete(ep)` (42_dispatcher R117). -/
def inComplete (ep : BitVec 4) (s : State) : State :=
  match s.pendAddr with
  | some a => { s with addr := a, pendAddr := none }
  | none =>
    match inCallback ep with
    | some .txDone => txDone s
    | none => s

/-- `on_transaction()` for an IN completion (42_dispatcher R116, R117): the head is removed after the handler. -/
def planTrnIn (ep : BitVec 4) (s : State) : Plan := .ok (inComplete ep s, [.dequeue])

/-- `out_complete(ep)` (42_dispatcher R118), which names `bd[ep][OUT]` (10_state R20; log entry 22). -/
def planOutComplete (ep : BitVec 4) (s : State) : Plan :=
  match slotOf ep .out with
  | none => .error .noDescriptor
  | some sl => outDonePlan (decodeOutDone ep (s.bd sl).pid) s

/-- `on_transaction()` for an OUT-direction completion (42_dispatcher R116, R118). -/
def planTrnOut (ep : BitVec 4) (s : State) : Plan :=
  match planOutComplete ep s with
  | .error c => .error c
  | .ok (t, ops) => .ok (t, ops ++ [.dequeue])

/-- `on_error()` (42_dispatcher R114), which does not return: the checks after it follow (R112). -/
def planOnError (stallf trnf : Bool) (dir : Dir) (endp : BitVec 4) (s : State) : Plan :=
  let s1 := { s with ueir := 0 }
  if stallf then planOnStall s1
  else if trnf then
    match dir with
    | .inn => planTrnIn endp s1
    | .out => planTrnOut endp s1
  else .ok (s1, [])

/-- The rule of an IRQ16 row (42_dispatcher R112); no other row is an IRQ16 row. -/
def irqPlan : Instr → State → Plan
  | .dispatchReset .., s => planOnReset s
  | .dispatchError stallf trnf dir endp, s => planOnError stallf trnf dir endp s
  | .dispatchStall .., s => planOnStall s
  | .dispatchTrnIn endp, s => planTrnIn endp s
  | .dispatchTrnOut endp, s => planTrnOut endp s
  | _, s => planNothing s

/-- The dispatcher's classification of a recorded PID (30_encoding R72, 42_dispatcher R118): with an OUT-direction
completion at the head of USTATQ, its OUTDONE8 row follows (log entry 7). -/
def planClassify (pid : BitVec 4) (s : State) : Plan :=
  match s.ustatq with
  | [] => planNothing s
  | c :: _ =>
    match c.dir with
    | .out => outDonePlan (decodeOutDone c.ep pid) s
    | .inn => planNothing s

/-! ## The meanings -/

/-- DISPATCH_RESET (42_dispatcher R113): the other flags stay pending (R112). -/
def execDispatchReset (_errf _stallf _trnf : Bool) (_dir : Dir) (_endp : BitVec 4) (s : State) :
    Host.Outcome State Fault Refusal :=
  isrInvoke planOnReset s

/-- DISPATCH_ERROR (42_dispatcher R114), then the row that follows (R112). -/
def execDispatchError (stallf trnf : Bool) (dir : Dir) (endp : BitVec 4) (s : State) :
    Host.Outcome State Fault Refusal :=
  isrInvoke (planOnError stallf trnf dir endp) s

/-- DISPATCH_STALL (42_dispatcher R115): a completion waits for the next invocation (R112). -/
def execDispatchStall (_trnf : Bool) (_dir : Dir) (_endp : BitVec 4) (s : State) : Host.Outcome State Fault Refusal :=
  isrInvoke planOnStall s

/-- DISPATCH_TRN_IN (42_dispatcher R116, R117). -/
def execDispatchTrnIn (endp : BitVec 4) (s : State) : Host.Outcome State Fault Refusal := isrInvoke (planTrnIn endp) s

/-- DISPATCH_TRN_OUT (42_dispatcher R116, R118). -/
def execDispatchTrnOut (endp : BitVec 4) (s : State) : Host.Outcome State Fault Refusal := isrInvoke (planTrnOut endp) s

/-- EP0_SETUP (42_dispatcher R118, 41_control_transfer R94). -/
def execEp0Setup (s : State) : Host.Outcome State Fault Refusal := isrRow planEp0Setup s

/-- EPX_SETUP (42_dispatcher R118): nothing. -/
def execEpxSetup (endp : BitVec 4) (s : State) : Host.Outcome State Fault Refusal := isrRow (planEpxSetup endp) s

/-- EP0_TOKEN_OUT (41_control_transfer R108). -/
def execEp0TokenOut (s : State) : Host.Outcome State Fault Refusal := isrRow planEp0TokenOut s

/-- DATA_TOKEN_OUT (42_dispatcher R118, 44_byte_stream R131). -/
def execDataTokenOut (s : State) : Host.Outcome State Fault Refusal := isrRow planDataTokenOut s

/-- EPX_TOKEN_OUT (42_dispatcher R118): nothing. -/
def execEpxTokenOut (endp : BitVec 4) (s : State) : Host.Outcome State Fault Refusal := isrRow (planEpxTokenOut endp) s

/-- OUT_ACK (42_dispatcher R118): no further action. -/
def execOutAck (endp : BitVec 4) (s : State) : Host.Outcome State Fault Refusal := isrRow (planOutAck endp) s

/-- OUT_OTHER_PID (42_dispatcher R118): no action. -/
def execOutOtherPid (endp _pid : BitVec 4) (s : State) : Host.Outcome State Fault Refusal :=
  isrRow (planOutOtherPid endp) s

/-- PID_OUT (30_encoding R72): class token-OUT. -/
def execPidOut (s : State) : Host.Outcome State Fault Refusal := isrRow (planClassify Pid.out) s

/-- PID_IN (30_encoding R72): class other. -/
def execPidIn (s : State) : Host.Outcome State Fault Refusal := isrRow (planClassify Pid.inn) s

/-- PID_SOF (30_encoding R72): class other. -/
def execPidSof (s : State) : Host.Outcome State Fault Refusal := isrRow (planClassify Pid.sof) s

/-- PID_SETUP (30_encoding R72): class token-SETUP. -/
def execPidSetup (s : State) : Host.Outcome State Fault Refusal := isrRow (planClassify Pid.setup) s

/-- PID_DATA0 (30_encoding R72, R73): class other; the data PID of toggle 0. -/
def execPidData0 (s : State) : Host.Outcome State Fault Refusal := isrRow (planClassify (Pid.ofToggle false)) s

/-- PID_DATA1 (30_encoding R72, R73): class other; the data PID of toggle 1. -/
def execPidData1 (s : State) : Host.Outcome State Fault Refusal := isrRow (planClassify (Pid.ofToggle true)) s

/-- PID_ACK (30_encoding R72): class handshake-ACK. -/
def execPidAck (s : State) : Host.Outcome State Fault Refusal := isrRow (planClassify Pid.ack) s

/-- PID_NAK (30_encoding R72): class other. -/
def execPidNak (s : State) : Host.Outcome State Fault Refusal := isrRow (planClassify Pid.nak) s

/-- PID_STALL (30_encoding R72): class other. -/
def execPidStall (s : State) : Host.Outcome State Fault Refusal := isrRow (planClassify Pid.stall) s

end Sys2Proof.Machine
end

