-- ==== Sys2Proof/Machine/Dispatch.lean ====
section
/-! DEFINITION. The meaning of every operation: one arm per constructor of `Instr`, in the order of
spec/opcode_table.json. -/

namespace Sys2Proof.Machine

def exec (i : Instr) (s : State) : Host.Outcome State Fault Refusal :=
  match i with
  | .getDescriptorDevice h index wIndex wLength => Sys2Proof.Machine.execGetDescriptorDevice h index wIndex wLength s
  | .getDescriptorConfiguration h index wIndex wLength => Sys2Proof.Machine.execGetDescriptorConfiguration h index wIndex wLength s
  | .getDescriptorString h index wIndex wLength => Sys2Proof.Machine.execGetDescriptorString h index wIndex wLength s
  | .getDescriptorDeviceQualifier h index wIndex wLength => Sys2Proof.Machine.execGetDescriptorDeviceQualifier h index wIndex wLength s
  | .getDescriptorOther h dtype index wIndex wLength => Sys2Proof.Machine.execGetDescriptorOther h dtype index wIndex wLength s
  | .setAddress h wValue wIndex wLength => Sys2Proof.Machine.execSetAddress h wValue wIndex wLength s
  | .setConfiguration h wValue wIndex wLength => Sys2Proof.Machine.execSetConfiguration h wValue wIndex wLength s
  | .stdOther h bRequest wValue wIndex wLength => Sys2Proof.Machine.execStdOther h bRequest wValue wIndex wLength s
  | .classNodata h bRequest wValue wIndex => Sys2Proof.Machine.execClassNodata h bRequest wValue wIndex s
  | .classData h bRequest wValue wIndex wLength => Sys2Proof.Machine.execClassData h bRequest wValue wIndex wLength s
  | .vendorNodata h bRequest wValue wIndex => Sys2Proof.Machine.execVendorNodata h bRequest wValue wIndex s
  | .vendorData h bRequest wValue wIndex wLength => Sys2Proof.Machine.execVendorData h bRequest wValue wIndex wLength s
  | .reservedType h bRequest wValue wIndex wLength => Sys2Proof.Machine.execReservedType h bRequest wValue wIndex wLength s
  | .clsSetLineCoding payload => Sys2Proof.Machine.execClsSetLineCoding payload s
  | .clsSetControlLineState payload => Sys2Proof.Machine.execClsSetControlLineState payload s
  | .clsOther bRequest payload => Sys2Proof.Machine.execClsOther bRequest payload s
  | .dispatchReset errf stallf trnf dir endp => Sys2Proof.Machine.execDispatchReset errf stallf trnf dir endp s
  | .dispatchError stallf trnf dir endp => Sys2Proof.Machine.execDispatchError stallf trnf dir endp s
  | .dispatchStall trnf dir endp => Sys2Proof.Machine.execDispatchStall trnf dir endp s
  | .dispatchTrnIn endp => Sys2Proof.Machine.execDispatchTrnIn endp s
  | .dispatchTrnOut endp => Sys2Proof.Machine.execDispatchTrnOut endp s
  | .ep0Setup => Sys2Proof.Machine.execEp0Setup s
  | .epxSetup endp => Sys2Proof.Machine.execEpxSetup endp s
  | .ep0TokenOut => Sys2Proof.Machine.execEp0TokenOut s
  | .dataTokenOut => Sys2Proof.Machine.execDataTokenOut s
  | .epxTokenOut endp => Sys2Proof.Machine.execEpxTokenOut endp s
  | .outAck endp => Sys2Proof.Machine.execOutAck endp s
  | .outOtherPid endp pid => Sys2Proof.Machine.execOutOtherPid endp pid s
  | .pidOut => Sys2Proof.Machine.execPidOut s
  | .pidIn => Sys2Proof.Machine.execPidIn s
  | .pidSof => Sys2Proof.Machine.execPidSof s
  | .pidSetup => Sys2Proof.Machine.execPidSetup s
  | .pidData0 => Sys2Proof.Machine.execPidData0 s
  | .pidData1 => Sys2Proof.Machine.execPidData1 s
  | .pidAck => Sys2Proof.Machine.execPidAck s
  | .pidNak => Sys2Proof.Machine.execPidNak s
  | .pidStall => Sys2Proof.Machine.execPidStall s
  | .init => Sys2Proof.Machine.execInit s
  | .readCharacter => Sys2Proof.Machine.execReadCharacter s
  | .writeCharacter b => Sys2Proof.Machine.execWriteCharacter b s
  | .writeString src => Sys2Proof.Machine.execWriteString src s
  | .armOut ep t => Sys2Proof.Machine.execArmOut ep t s
  | .armIn ep data len t => Sys2Proof.Machine.execArmIn ep data len t s
  | .stallIn ep => Sys2Proof.Machine.execStallIn ep s
  | .rxCallback d => Sys2Proof.Machine.execRxCallback d s
  | .txDoneCallback => Sys2Proof.Machine.execTxDoneCallback s
  | .busSetup a ep p => Sys2Proof.Machine.execBusSetup a ep p s
  | .busOut a ep t d => Sys2Proof.Machine.execBusOut a ep t d s
  | .busIn a ep => Sys2Proof.Machine.execBusIn a ep s
  | .busReset => Sys2Proof.Machine.execBusReset s
  | .busError k => Sys2Proof.Machine.execBusError k s

end Sys2Proof.Machine
end

