-- ==== Sys2Proof/Machine/Sched.lean ====
section
/-! DEFINITION. Which agent takes the next step and what it runs: the program's lines (30_encoding R87, 60_exceptions
R162), the ISR's entry with its fetch of the IRQ16 word (42_dispatcher R111, 60_exceptions R167), FG's continuation, and
the placing of a word where the next step fetches. -/

namespace Sys2Proof.Machine

/-- The record of the IRQ16 word the dispatcher reads, `USTAT, UIR` (30_encoding R83, R88). -/
def State.irqRecord (s : State) : List Byte := [s.uir, s.ustat]

/-- ISR entry (42_dispatcher R111): the row of the IRQ16 word the registers show runs. -/
def isrEnter (s : State) : Host.Outcome State Fault Refusal :=
  match decode .irq16 s.irqRecord with
  | .ok i => exec i s
  | .error e => .refused (.illFormed e)

/-- The processor side with no program line left, hence with no bus event to come between (60_exceptions R167,
42_dispatcher R120, R121): the ISR's entry first; while INISR = 1 the ISR alone; else FG's next line. With nothing to do
nothing changes. -/
def procStep (s : State) : Host.Outcome State Fault Refusal :=
  if s.isrReady then isrEnter s
  else if s.inisr then isrResume s
  else fgOutcome s

/-- ISR entry as one atomic step (42_dispatcher R111, 92_eei_decisions D17): up to the first hold point. -/
def isrEnterAtom (s : State) : Host.Outcome State Fault Refusal :=
  match decode .irq16 s.irqRecord with
  | .ok i => segmentPlan s (irqPlan i s.enterIsr) [.ret]
  | .error e => .refused (.illFormed e)

/-- One atomic step of the processor side (00_scope R8, 42_dispatcher R121, 60_exceptions R167, 92_eei_decisions D17). -/
def procAtom (s : State) : Host.Outcome State Fault Refusal :=
  if s.isrReady then isrEnterAtom s
  else if s.inisr then .next (isrAtom s)
  else fgOutcome s

/-- `FG.RUN` (30_encoding R87): one atomic step of FG; the line `.fgRun` stands until the operation returns or holds, or
until the ISR's entry is due (60_exceptions R167; log entry 18). -/
def fgRunLine (rest : List Line) (s : State) : Host.Outcome State Fault Refusal :=
  if s.inisr then .refused .isrActive
  else if s.isrReady then .refused .isrPending
  else if s.kfg = .idle then .refused .fgIdle
  else
    match fgStep s with
    | .moved t => if t.kfg = .idle ∨ t.isrReady then .next (t.setFeed rest) else .next t
    | .held => .next (s.setFeed rest)
    | .raised c => .next (s.raise c)

/-- `FG.READ`, `FG.WRITE` and `FG.PUTC` (30_encoding R87): the call, and then, unless it has returned, `FG.RUN` in its
place, so that no step of another agent comes before the operation returns or holds. -/
def fgCallLine (call : State → Host.Outcome State Fault Refusal) (rest : List Line) (s : State) :
    Host.Outcome State Fault Refusal :=
  match call s with
  | .next t => .next (t.setFeed (if t.kfg = .idle then rest else .fgRun :: rest))
  | .fault c => .fault c
  | .refused r => .refused r

/-! ## Rows as lines (log entry 6) -/

/-- The rows whose rules the engine reaches from inside the ISR (42_dispatcher R118, 41_control_transfer R94,
43_class_requests R125, 44_byte_stream R131, R140). -/
def isrContext (i : Instr) : Bool :=
  match i.format with
  | .setup64 | .classreq8 | .outdone8 | .pid4 => true
  | .irq16 | .busev8 => false
  | .call8 =>
    match i with
    | .rxCallback _ | .txDoneCallback => true
    | _ => false

/-- Whether the head of USTATQ is the completion a word shows. -/
def headShown (trnf : Bool) (c : Completion) (s : State) : Bool :=
  match s.ustatq with
  | [] => !trnf
  | c' :: _ => trnf && decide (c' = c)

/-- Whether the registers show the word of an IRQ16 row (30_encoding R83): its flags, and the head of USTATQ if TRNF is one
of them. -/
def irqShown (i : Instr) (s : State) : Bool :=
  match i with
  | .dispatchReset errf stallf trnf dir endp =>
    s.rstf && (s.errf == errf) && (s.stallf == stallf) && headShown trnf ⟨endp, dir⟩ s
  | .dispatchError stallf trnf dir endp => !s.rstf && s.errf && (s.stallf == stallf) && headShown trnf ⟨endp, dir⟩ s
  | .dispatchStall trnf dir endp => !s.rstf && !s.errf && s.stallf && headShown trnf ⟨endp, dir⟩ s
  | .dispatchTrnIn endp => !s.rstf && !s.errf && !s.stallf && headShown true ⟨endp, .inn⟩ s
  | .dispatchTrnOut endp => !s.rstf && !s.errf && !s.stallf && headShown true ⟨endp, .out⟩ s
  | _ => false

/-- Why a row of the ISR or of FG may not be a line now: the ISR's rows need the entry condition of 42_dispatcher R111, an
IRQ16 row also that the registers show its word, FG's rows that the processor side is FG's (60_exceptions R162, R167). A
bus event may come always (45_sie_bus_agent R144), and INIT (log entry 19). -/
def lineRefusal (i : Instr) (s : State) : Option Refusal :=
  match i.format with
  | .busev8 => none
  | .irq16 => if s.isrReady && !irqShown i s then some .wordNotShown else s.entryRefusal
  | .setup64 | .classreq8 | .outdone8 | .pid4 | .call8 =>
    if i = .init then none
    else if isrContext i then s.entryRefusal
    else if s.inisr then some .isrActive
    else if s.isrReady then some .isrPending
    else none

/-- A line of a record: it is decoded, admitted and run. -/
def wordLine (f : Format) (bs : List Byte) (s : State) : Host.Outcome State Fault Refusal :=
  match decode f bs with
  | .error e => .refused (.illFormed e)
  | .ok i =>
    match lineRefusal i s with
    | some r => .refused r
    | none => exec i s

/-- One step under a given first line of the program; `s` holds the lines after it (30_encoding R87, 60_exceptions
R162). -/
def lineStep (l : Line) (rest : List Line) (s : State) : Host.Outcome State Fault Refusal :=
  match l with
  | .word f bs => wordLine f bs (s.setFeed rest)
  | .isr => if s.isrReady then isrEnter (s.setFeed rest) else .refused .isrNotReady
  | .isrStar => if s.isrReady then isrEnter s else .next (s.setFeed rest)
  | .isrRun => if s.inisr then isrResume (s.setFeed rest) else .refused .isrNotActive
  | .fgRead => fgCallLine execReadCharacter rest s
  | .fgWrite src => fgCallLine (execWriteString src) rest s
  | .fgPutc b => fgCallLine (execWriteCharacter b) rest s
  | .fgRun => fgRunLine rest s
  | .proc => procAtom (s.setFeed rest)

/-- One step of the machine (60_exceptions R158): no agent steps once FAULT is set; the first line of the program chooses
the agent; with no line left the processor side steps. -/
def agentStep (s : State) : Host.Outcome State Fault Refusal :=
  match s.fault with
  | some c => .fault c
  | none =>
    match s.feed with
    | [] => procStep s
    | l :: rest => lineStep l rest s

/-! ## Placing a word (log entries 4 and 5) -/

/-- The registers as an IRQ16 word shows them (30_encoding R83, R88). The word does not say which error ERRF stands for:
one already recorded, else PIDEF (DESIGN CHOICE, log entry 5). -/
def showIrq (rstf errf stallf trnf : Bool) (c : Completion) (s : State) : State :=
  { s with
    rstf := rstf, stallf := stallf,
    ueir := if errf then (if s.ueir = 0 then ErrKind.mask .pidef else s.ueir) else 0,
    ustatq := if trnf then c :: s.ustatq.tail else [] }

/-- The completion inside whose service a row of the ISR context runs. -/
def servedCompletion : Instr → Completion
  | .epxSetup endp | .epxTokenOut endp | .outAck endp | .outOtherPid endp _ => ⟨endp, .out⟩
  | .dataTokenOut | .rxCallback _ => ⟨Config.epData, .out⟩
  | .txDoneCallback => ⟨Config.epData, .inn⟩
  | _ => ⟨0, .out⟩

/-- `s` with the interrupt flags a line of this row needs: for an IRQ16 row those its word shows; for another row of the
ISR context, if no flag is set, the completion it serves (DESIGN CHOICE, log entry 5). -/
def flagsFor (i : Instr) (s : State) : State :=
  match i with
  | .dispatchReset errf stallf trnf dir endp => showIrq true errf stallf trnf ⟨endp, dir⟩ s
  | .dispatchError stallf trnf dir endp => showIrq false true stallf trnf ⟨endp, dir⟩ s
  | .dispatchStall trnf dir endp => showIrq false false true trnf ⟨endp, dir⟩ s
  | .dispatchTrnIn endp => showIrq false false false true ⟨endp, .inn⟩ s
  | .dispatchTrnOut endp => showIrq false false false true ⟨endp, .out⟩ s
  | i => if isrContext i && !s.irq then { s with ustatq := [servedCompletion i] } else s

/-- Place a word of the opcode table as the program's next line, with the interrupt flags that line needs (log entries 4
and 5). -/
def placeWord (s : State) (nbits w : Nat) : State :=
  match tableRecord nbits w with
  | none => s
  | some (f, bs) =>
    match decode f bs with
    | .error _ => s.setFeed (.word f bs :: s.feed)
    | .ok i => (flagsFor i s).setFeed (.word f bs :: s.feed)

end Sys2Proof.Machine
end

