-- ==== Sys2Proof/Machine/Step.lean ====
section
/-! DEFINITION. The machine's one step, and the placing of a word where it fetches its next operation. -/

namespace Sys2Proof.Machine

/-- One step of one agent (00_scope R8, 60_exceptions R158). -/
def step (s : State) : Host.Outcome State Fault Refusal := agentStep s

/-- `s` with a word of the opcode table as the next line of its program, so that the next step runs it (log entry 5). -/
def State.withFetchWord (s : State) (nbits w : Nat) : State := placeWord s nbits w

end Sys2Proof.Machine
end

