-- ==== Sys2Proof/Safety.lean ====
section
/-! DEFINITION. What counts as a safe run, in the terms the statements use: the invariants of the state (10_state R19,
R24, R26, R30 to R39), and the invariants of runs whose program holds only bus events, public calls and agent steps
(60_exceptions R164, 44_byte_stream R142, 70_reset R185 to R187). -/

namespace Sys2Proof.Machine

/-! ## Invariants of every step -/

/-- USB RAM is in its canonical form. -/
def MemOk (s : State) : Prop := Memory.wf s.ram = true

/-- FG stands between the check of OCC and the update of OCC (44_byte_stream R135, lines 2 to 4). -/
def KFg.beforeDequeue : KFg → Bool
  | .read2 | .read3 _ | .read4 _ => true
  | _ => false

/-- The ring (10_state R39): its capacity is in range, OCC does not exceed it, the cursors are in range and
`WR = (RD + OCC) mod P_RXCAP`; and FG never stands before a dequeue with OCC = 0 (44_byte_stream R135). -/
def RingOk (s : State) : Prop :=
  1 ≤ s.cfg.rxCap ∧ s.cfg.rxCap ≤ 255 ∧ s.rxbuf.length = s.cfg.rxCap ∧ s.occ.toNat ≤ s.cfg.rxCap ∧ s.rd < s.cfg.rxCap
    ∧ s.wr = (s.rd + s.occ.toNat) % s.cfg.rxCap ∧ (s.kfg.beforeDequeue = true → s.occ ≠ 0)

/-- The descriptors (10_state R24, R26): `cnt` is at most P_MAXP and `adr` is P_BUFADDR. -/
def BdtOk (s : State) : Prop := ∀ sl : Slot, (s.bd sl).cnt ≤ Config.maxP ∧ (s.bd sl).adr = paramAddr s.cfg sl

/-- USTATQ holds at most P_USTAT_DEPTH entries (10_state R34). -/
def QueueOk (s : State) : Prop := s.ustatq.length ≤ s.cfg.ustatDepth

/-- The unused bits of UEIR read 0 (30_encoding R76). -/
def UeirOk (s : State) : Prop := s.ueir &&& ~~~ueie = 0

/-- INISR is 1 exactly while an invocation is in progress (60_exceptions R169, R170), its return is still to come, and it
is never inside FG's critical section (42_dispatcher R111, 60_exceptions R171). -/
def ContextOk (s : State) : Prop :=
  match s.kisr with
  | .inactive => s.inisr = false
  | .active k => s.inisr = true ∧ .ret ∈ k ∧ s.gie = true

/-- FG stands between `DI` and `EI` (44_byte_stream R135, lines 4 and 5). -/
def KFg.critical : KFg → Bool
  | .read4 _ | .read5 _ => true
  | _ => false

/-- GIE is 0 exactly in the critical section of `read_character` (60_exceptions R171, decision D39). -/
def GieOk (s : State) : Prop := s.gie = !s.kfg.critical

/-! ## Programs of bus events, public calls and agent steps -/

/-- A line the outside world may give (30_encoding R81, R82, R87): no internal operation and no row applied directly. -/
def Line.isPublic : Line → Bool
  | .word .busev8 _ => true
  | .word .call8 (c :: _) => c == 0x01 || c == 0x02 || c == 0x03
  | .word _ _ => false
  | .isr | .isrStar | .isrRun | .fgRead | .fgWrite _ | .fgPutc _ | .fgRun | .proc => true

def PublicFeed (s : State) : Prop := s.feed.all Line.isPublic = true

/-- An arming operation that raises no fault (60_exceptions R159). -/
def ArmOp.legal : ArmOp → Bool
  | .armOut ep _ => (slotOf ep .out).isSome
  | .armIn ep data len _ => decide (len ≤ Config.maxP) && (data.isSome || len == 0) && (slotOf ep .inn).isSome
  | .stallIn ep => (slotOf ep .inn).isSome

def IsrOp.legal : IsrOp → Bool
  | .arm a => a.legal
  | .pktdisOff | .dequeue | .ret => true

def KIsr.ops : KIsr → List IsrOp
  | .inactive => []
  | .active k => k

/-- FG's continuation is one a public call leads to, and the chunk it is about to arm fits a packet. -/
def KFg.legal : KFg → Bool
  | .arm _ => false
  | .write3 _ _ n => decide (n ≤ Config.maxP)
  | _ => true

/-- The states from which no rule raises a fault (60_exceptions R164). -/
def NoFaultOk (s : State) : Prop :=
  s.fault = none ∧ PublicFeed s ∧ s.kfg.legal = true ∧ s.kisr.ops.all IsrOp.legal = true
    ∧ ∀ c ∈ s.ustatq, c.dir = .out → (slotOf c.ep .out).isSome = true

/-- One for true. -/
def one (b : Bool) : Nat := if b then 1 else 0

/-- How many completions of a direction of an endpoint wait in USTATQ. -/
def pending (ep : BitVec 4) (dir : Dir) (s : State) : Nat := s.ustatq.count ⟨ep, dir⟩

def KFg.beforeArm : KFg → Bool
  | .write3 _ _ _ => true
  | _ => false

/-- An operation of the ISR that leaves the IN direction of the data and notification endpoints alone. -/
def IsrOp.sparesDataIn : IsrOp → Bool
  | .arm (.armIn ep _ _ _) | .arm (.stallIn ep) => ep == 0
  | _ => true

/-- Flow control of the data-IN endpoint (44_byte_stream R142): of "TXREADY is 1", "the descriptor is with the SIE", "its
completion waits in USTATQ" and "FG has cleared TXREADY and not yet armed" at most one holds, once. -/
def FlowOk (s : State) : Prop :=
  PublicFeed s ∧ one s.txReady + one (s.bdt.ep2In.own == .sie) + pending 2 .inn s + one s.kfg.beforeArm ≤ 1
    ∧ (∀ src off, s.kfg = .write2 src off → s.txReady = true) ∧ (∀ a, s.kfg ≠ .arm a)
    ∧ s.kisr.ops.all IsrOp.sparesDataIn = true ∧ s.bdt.ep1In.own = .cpu
    ∧ s.bdt.ep2In.stall = false ∧ s.bdt.ep2Out.stall = false ∧ s.epStall.e1 = false ∧ s.epStall.e2 = false

/-- An IN-direction arming operation on endpoint 0. -/
def ArmOp.ep0In : ArmOp → Bool
  | .armIn ep _ _ _ | .stallIn ep => ep == 0
  | .armOut _ _ => false

/-- What is left of an invocation at a hold point: at endpoint 0, perhaps an IN arm, then the OUT re-arm, the end of
`out_complete(0)` and the return; at the data endpoint the OUT re-arm and the return. The completion it serves is still at
the head of USTATQ (42_dispatcher R116, 70_reset R192). -/
def HeldShape (s : State) : Prop :=
  ∀ k, s.kisr = .active k →
    (s.ustatq.head? = some ⟨0, .out⟩
        ∧ ∃ t, k = [.arm (.armOut 0 t), .pktdisOff, .dequeue, .ret]
          ∨ ∃ a, ArmOp.ep0In a = true ∧ k = [.arm a, .arm (.armOut 0 t), .pktdisOff, .dequeue, .ret])
      ∨ (s.ustatq.head? = some ⟨2, .out⟩ ∧ ∃ t, k = [.arm (.armOut 2 t), .dequeue, .ret])

/-- The OUT hand-off (70_reset R185): for each OUT descriptor, with the SIE or a completion waiting, and not both; and what
is left of an invocation re-arms the descriptor of the completion it serves. -/
def OutOk (s : State) : Prop :=
  PublicFeed s ∧ one (s.bdt.ep0Out.own == .sie) + pending 0 .out s ≤ 1
    ∧ one (s.bdt.ep2Out.own == .sie) + pending 2 .out s ≤ 1 ∧ (∀ a, s.kfg ≠ .arm a) ∧ HeldShape s

/-- Endpoint 0 is deaf (70_reset R187): its OUT descriptor is with the CPU, no completion of it waits, and nothing that is
left to do arms it. -/
def Deaf (s : State) : Prop :=
  PublicFeed s ∧ s.bdt.ep0Out.own = .cpu ∧ pending 0 .out s = 0
    ∧ (∀ t, .arm (.armOut 0 t) ∉ s.kisr.ops) ∧ (∀ a, s.kfg ≠ .arm a)

/-- The ISR holds in an IN arm of endpoint 0 whose descriptor the SIE owns, while packet processing is disabled
(70_reset R186). -/
def Deadlocked (s : State) : Prop :=
  PublicFeed s ∧ s.inisr = true ∧ s.pktdis = true ∧ s.bdt.ep0In.own = .sie
    ∧ ∃ a k, ArmOp.ep0In a = true ∧ a.legal = true ∧ s.kisr = .active (.arm a :: k)

/-! ## The ring's contents -/

/-- The bytes in the ring, oldest first (10_state R39). -/
def ringBytes (s : State) : List Byte :=
  (List.range s.occ.toNat).map fun i => s.rxbuf.getD ((s.rd + i) % s.cfg.rxCap) 0

end Sys2Proof.Machine
end

