-- ==== Sys2Proof/Certificates/Slice0/Obligations.lean ====
section
/-! DEFINITION. The statements for the provers: what each row of the operation map does, what a step of the machine is,
how the formats decode, which invariants every step keeps. Words that only the statements use stand in `Spec0`. -/

namespace Sys2Proof.Spec0

open Sys2Proof.Machine

/-! ## Conditions on a state -/

/-- Outside the interrupt context (60_exceptions R172). -/
def Calm (s : State) : Prop := s.inisr = false ∧ s.kisr = .inactive

/-- An invocation may start (42_dispatcher R111). -/
def CanEnter (s : State) : Prop := s.irq = true ∧ s.gie = true ∧ Calm s

/-- FG may start an operation (60_exceptions R162). -/
def FgFree (s : State) : Prop := s.inisr = false ∧ s.isrReady = false ∧ s.kfg = .idle

/-- Both descriptors of endpoint 0 are with the CPU. -/
def Ep0Free (s : State) : Prop := s.bdt.ep0In.own = .cpu ∧ s.bdt.ep0Out.own = .cpu

/-! ## Descriptors as the arming rules leave them (40_bdt_arming R89 to R91) -/

def inArmed (b : BD) (n : Nat) (t : Bool) : BD :=
  { b with cnt := n, dts := t, stall := false, own := .sie, statBy := .cpu }

def outArmed (b : BD) (t : Bool) : BD :=
  { b with cnt := 64, dts := t, stall := false, own := .sie, statBy := .cpu }

def inStalled (b : BD) : BD := { b with cnt := 0, stall := true, own := .sie, statBy := .cpu }

/-! ## States a control rule leaves (41_control_transfer R97 to R103) -/

/-- A response of these bytes on endpoint 0 IN with toggle 1, endpoint 0 OUT re-armed with toggle 0. -/
def responded (s : State) (data : List Byte) : State :=
  { s with
    ctrl := .awaitingRequest,
    ram := memWrite s.ram s.bdt.ep0In.adr data,
    bdt := { s.bdt with ep0In := inArmed s.bdt.ep0In data.length true, ep0Out := outArmed s.bdt.ep0Out false } }

/-- A zero-length acknowledgement on endpoint 0 IN with toggle 1, endpoint 0 OUT re-armed with toggle 0. -/
def acknowledged (s : State) : State :=
  { s with
    ctrl := .awaitingRequest,
    bdt := { s.bdt with ep0In := inArmed s.bdt.ep0In 0 true, ep0Out := outArmed s.bdt.ep0Out false } }

/-- An invocation at a hold point in the service of a request, with what is left of it. -/
def holding (s : State) (rest : List IsrOp) : State :=
  { s with ctrl := .awaitingRequest, inisr := true, kisr := .active rest }

/-- A packet whose SETUP64 row is dropped (41_control_transfer R107): an unsupported descriptor type, an index out of
range, another standard request, a reserved type. -/
def isDropped (i : Instr) (s : State) : Bool :=
  match i with
  | .getDescriptorOther .. | .stdOther .. | .reservedType .. => true
  | .getDescriptorConfiguration _ index _ _ => decide (s.cfg.catalog.confs.length ≤ index.toNat)
  | .getDescriptorString _ index _ _ => decide (s.cfg.catalog.strs.length ≤ index.toNat)
  | _ => false

/-- Endpoint 0 is deaf, nothing is armed on its IN direction, and nothing left to do arms it (70_reset R187). -/
def Silent (s : State) : Prop :=
  Deaf s ∧ s.bdt.ep0In.own = .cpu ∧ ∀ a, ArmOp.ep0In a = true → .arm a ∉ s.kisr.ops

/-! ## Kinds of rows -/

/-- The rows that run in the ISR context but are no dispatcher rows (42_dispatcher R118, 44_byte_stream R131, R140). -/
def isIsrRow (i : Instr) : Bool :=
  i.format == .setup64 || i.format == .outdone8 || i.format == .pid4
    || (match i with | .rxCallback _ | .txDoneCallback => true | _ => false)

/-- The rows that may decode a SETUP packet or end a data stage on endpoint 0. -/
def servesEp0 (i : Instr) : Bool :=
  i.format == .setup64
    || (match i with
        | .ep0Setup | .ep0TokenOut | .dispatchTrnOut _ | .dispatchError _ _ _ _ | .pidOut | .pidSetup => true
        | _ => false)

/-- The rows that may deliver received bytes to the ring. -/
def receives (i : Instr) : Bool :=
  match i with
  | .rxCallback _ | .dataTokenOut | .dispatchTrnOut _ | .dispatchError _ _ _ _ | .pidOut => true
  | _ => false

/-- The endpoint of an IN descriptor. -/
def inEndpoint : Slot → Option (BitVec 4)
  | .ep0In => some 0
  | .ep1In => some 1
  | .ep2In => some 2
  | .ep0Out | .ep2Out => none

/-- A line under which the processor side steps: no bus event, and no INIT, which launches the engine (10_state
R45). -/
def isProcessorLine : Line → Bool
  | .word f bs =>
    match decode f bs with
    | .ok i => i.format != .busev8 && i != .init
    | .error _ => true
  | _ => true


/-- From `s` to `t` each descriptor the SIE owns is unchanged, or `on_stall` has released it (42_dispatcher R115), which
only the IN descriptors of endpoints in `released` may be; and no byte of its packet buffer changes. -/
def SparesSie (released : BitVec 4 → Prop) (s t : State) : Prop :=
  ∀ sl, (s.bd sl).own = .sie →
    (t.bd sl = s.bd sl
      ∨ ((∃ ep, inEndpoint sl = some ep ∧ released ep)
          ∧ t.bd sl = { s.bd sl with stall := false, own := .cpu, statBy := .cpu }))
    ∧ (MemOk s → BdtOk s → bufAddrsWf s.cfg.bufAddr = true →
        ∀ n, n < 64 → t.ram.get (bufAddr (s.bd sl).adr n) = s.ram.get (bufAddr (s.bd sl).adr n))


/-- The rows that run the SETUP64 row of the packet in the EP0 OUT buffer (42_dispatcher R118, 41_control_transfer R94). -/
def decodesPacket (i : Instr) : Bool :=
  match i with
  | .ep0Setup | .pidSetup | .dispatchTrnOut 0 | .dispatchError false true .out 0 => true
  | _ => false


/-- The rows that serve an IN completion (42_dispatcher R112, R117). -/
def servesIn (i : Instr) : Bool :=
  match i with
  | .dispatchTrnIn _ | .dispatchError false true .inn _ => true
  | _ => false


/-- The row the dispatcher runs, by the flags and the head of USTATQ (42_dispatcher R112, 30_encoding R83). -/
def irqRow (s : State) : Instr :=
  let c : Completion := s.ustatq.headD ⟨0, .out⟩
  if s.rstf then .dispatchReset (s.ueir != 0) s.stallf (s.ustatq != []) c.dir c.ep
  else if s.ueir ≠ 0 then .dispatchError s.stallf (s.ustatq != []) c.dir c.ep
  else if s.stallf then .dispatchStall (s.ustatq != []) c.dir c.ep
  else match c.dir with | .inn => .dispatchTrnIn c.ep | .out => .dispatchTrnOut c.ep

/-- The word of a record in its format, as the opcode table numbers its bits (30_encoding R65, R83, R88). -/
def wordOf : Format → List Byte → BitVec 64
  | .setup64, [p0, p1, p2, p3, p4, p5, p6, p7] => p7 ++ p6 ++ p5 ++ p4 ++ p3 ++ p2 ++ p1 ++ p0
  | .irq16, [uir, ustat] => (ustat ++ uir).setWidth 64
  | _, b :: _ => b.setWidth 64
  | _, [] => 0

/-! ## Stored bytes (20_memory R48) -/

/-- How many bytes a SETUP64 row stores: the length of its response. -/
def responseLen (i : Instr) (s : State) : Nat :=
  match i with
  | .getDescriptorDevice _ _ _ wLength => min wLength.toNat 18
  | .getDescriptorConfiguration _ index _ wLength =>
    match s.cfg.catalog.confs[index.toNat]? with
    | some c => min wLength.toNat (min 64 (confBlob c).length)
    | none => 0
  | .getDescriptorString _ index _ wLength =>
    match s.cfg.catalog.strs[index.toNat]? with
    | some d => min wLength.toNat (min 64 (2 + d.length))
    | none => 0
  | _ => 0

/-- The length of the response to the packet in the EP0 OUT buffer. -/
def packetLen (s : State) : Nat := responseLen (decodeSetup (readSetup s.ram s.bdt.ep0Out.adr)) s

/-- How many bytes of USB RAM a row stores to. -/
def storedLen (i : Instr) (s : State) : Nat :=
  match i with
  | .ep0Setup => packetLen s
  | .pidSetup => if s.ustatq.head? = some ⟨0, .out⟩ then packetLen s else 0
  | .dispatchTrnOut ep => if ep = 0 ∧ s.bdt.ep0Out.pid = Pid.setup then packetLen s else 0
  | .dispatchError stallf trnf dir ep =>
    if stallf = false ∧ trnf = true ∧ dir = .out ∧ ep = 0 ∧ s.bdt.ep0Out.pid = Pid.setup then packetLen s else 0
  | .armIn _ data len _ => if data = none then 0 else len.toNat
  | .busSetup _ _ _ => 8
  | .busOut _ _ _ d => d.length
  | i => responseLen i s

/-- The packet buffer a row stores to. -/
def storedIn (i : Instr) (s : State) : BitVec 16 :=
  match i with
  | .armIn ep _ _ _ => match slotOf ep .inn with | some sl => (s.bd sl).adr | none => 0
  | .busSetup _ _ _ => s.bdt.ep0Out.adr
  | .busOut _ ep _ _ => match slotOf ep .out with | some sl => (s.bd sl).adr | none => 0
  | _ => s.bdt.ep0In.adr

end Sys2Proof.Spec0

open Sys2Proof Sys2Proof.Machine Sys2Proof.Spec0

/-! ## Reset and INIT -/

/-- 10_state R45: the launch values, for every value of the parameters; and reset is a launch state. The fields R45 gives
no value (`pid`, RXBUF, LINECODING, packet buffers) are not stated. -/
def Obligations.LaunchStateHoldsTheTable : Prop :=
  (∀ c : Params,
    let s := State.launch c
    (s.bdt.ep0Out.own = .sie ∧ s.bdt.ep0Out.stall = false ∧ s.bdt.ep0Out.dts = false ∧ s.bdt.ep0Out.cnt = 64)
      ∧ (s.bdt.ep0In.own = .cpu ∧ s.bdt.ep0In.stall = false ∧ s.bdt.ep0In.dts = false ∧ s.bdt.ep0In.cnt = 0)
      ∧ (s.bdt.ep1In.own = .cpu ∧ s.bdt.ep1In.stall = false ∧ s.bdt.ep1In.dts = false ∧ s.bdt.ep1In.cnt = 0)
      ∧ (s.bdt.ep2Out.own = .sie ∧ s.bdt.ep2Out.stall = false ∧ s.bdt.ep2Out.dts = false ∧ s.bdt.ep2Out.cnt = 64)
      ∧ (s.bdt.ep2In.own = .cpu ∧ s.bdt.ep2In.stall = false ∧ s.bdt.ep2In.dts = false ∧ s.bdt.ep2In.cnt = 0)
      ∧ (∀ sl, (s.bd sl).adr = paramAddr c sl)
      ∧ s.outTog = ⟨false, false, false⟩ ∧ s.inTog = ⟨false, false, false⟩ ∧ s.epStall = ⟨false, false, false⟩
      ∧ s.addr = 0 ∧ s.rstf = false ∧ s.stallf = false ∧ s.ueir = 0 ∧ s.ustatq = [] ∧ s.pktdis = false ∧ s.gie = true
      ∧ s.inisr = false ∧ s.ctrl = .awaitingRequest ∧ s.pendAddr = none ∧ s.rd = 0 ∧ s.wr = 0 ∧ s.occ = 0
      ∧ s.rxbuf.length = c.rxCap ∧ s.txReady = true ∧ s.diag = [] ∧ s.fault = none ∧ s.kfg = .idle
      ∧ s.kisr = .inactive)
    ∧ ∃ c : Params, paramsWf c = true ∧ State.reset = State.launch c

/-- 70_reset R176, 60_exceptions R162, 10_state R43: INIT with admissible parameters leaves the launch values of every
register, from any state whatever, and writes neither packet buffers nor RXBUF, LINECODING and `pid` (R180); it is refused
exactly when a parameter is out of its range, the catalog breaks a condition, or two packet buffers share an address. -/
def Obligations.InitLaunchesOrRefuses : Prop :=
  (∀ s : State, paramsWf s.cfg = true →
    exec .init s = .next
      { State.launch s.cfg with
        bdt :=
          { ep0Out := { (State.launch s.cfg).bdt.ep0Out with pid := s.bdt.ep0Out.pid },
            ep0In := { (State.launch s.cfg).bdt.ep0In with pid := s.bdt.ep0In.pid },
            ep1In := { (State.launch s.cfg).bdt.ep1In with pid := s.bdt.ep1In.pid },
            ep2Out := { (State.launch s.cfg).bdt.ep2Out with pid := s.bdt.ep2Out.pid },
            ep2In := { (State.launch s.cfg).bdt.ep2In with pid := s.bdt.ep2In.pid } },
        ram := s.ram, rxbuf := s.rxbuf, lineCoding := s.lineCoding,
        feed := s.feed, answers := s.answers, returned := s.returned, free := s.free })
  ∧ ∀ s : State,
    exec .init s = .refused .notLaunched ↔
      ¬(1 ≤ s.cfg.rxCap ∧ s.cfg.rxCap ≤ 255 ∧ 1 ≤ s.cfg.ustatDepth
        ∧ s.cfg.catalog.dev.length = 18
        ∧ s.cfg.catalog.confs ≠ []
        ∧ (∀ c ∈ s.cfg.catalog.confs, c.header.length = 9
            ∧ (c.header ++ c.ifaces.flatMap fun i => i.iface ++ i.subs.flatten).length ≤ 65535)
        ∧ s.cfg.catalog.strs ≠ [] ∧ (∀ d ∈ s.cfg.catalog.strs, d.length ≤ 253)
        ∧ ∀ sl sl' : Slot, sl ≠ sl' → ∀ i j : Nat, i < 64 → j < 64 →
            bufAddr (paramAddr s.cfg sl) i ≠ bufAddr (paramAddr s.cfg sl') j)

/-! ## SETUP64 -/

/-- 41_control_transfer R97: GET_DESCRIPTOR(DEVICE), with both descriptors of endpoint 0 free. Log entry 6 (a row
applied directly: the model's choice). -/
def Obligations.DeviceDescriptorIsSent : Prop :=
  ∀ (h : ReqHead) (index : Byte) (wIndex wLength : BitVec 16) (s : State),
    CanEnter s → Ep0Free s → s.cfg.catalog.dev.length = 18 →
    exec (.getDescriptorDevice h index wIndex wLength) s
      = .next (responded s (s.cfg.catalog.dev.take (min wLength.toNat 18)))

/-- 41_control_transfer R98, 30_encoding R79: GET_DESCRIPTOR(CONFIGURATION); an index out of range is dropped. Log
entry 6 (a row applied directly: the model's choice). -/
def Obligations.ConfigurationDescriptorIsSent : Prop :=
  ∀ (h : ReqHead) (index : Byte) (wIndex wLength : BitVec 16) (s : State), CanEnter s →
    (∀ c, Ep0Free s → s.cfg.catalog.confs[index.toNat]? = some c →
      let blob := c.header ++ c.ifaces.flatMap fun i => i.iface ++ i.subs.flatten
      exec (.getDescriptorConfiguration h index wIndex wLength) s
        = .next (responded s (blob.take (min wLength.toNat (min 64 blob.length)))))
    ∧ (s.cfg.catalog.confs.length ≤ index.toNat →
        exec (.getDescriptorConfiguration h index wIndex wLength) s = .next { s with ctrl := .awaitingRequest })

/-- 41_control_transfer R99, 30_encoding R78: GET_DESCRIPTOR(STRING); an index out of range is dropped. Log entry 6
(a row applied directly: the model's choice). -/
def Obligations.StringDescriptorIsComposed : Prop :=
  ∀ (h : ReqHead) (index : Byte) (wIndex wLength : BitVec 16) (s : State), CanEnter s →
    (∀ d, Ep0Free s → s.cfg.catalog.strs[index.toNat]? = some d →
      let full : List Byte := [BitVec.ofNat 8 (2 + d.length), 0x03] ++ d
      exec (.getDescriptorString h index wIndex wLength) s
        = .next (responded s (full.take (min wLength.toNat (min 64 (2 + d.length))))))
    ∧ (s.cfg.catalog.strs.length ≤ index.toNat →
        exec (.getDescriptorString h index wIndex wLength) s = .next { s with ctrl := .awaitingRequest })

/-- 41_control_transfer R100: DEVICE_QUALIFIER stalls endpoint 0 IN, whose `dts` is unchanged, and re-arms OUT. Log
entry 6 (a row applied directly: the model's choice). -/
def Obligations.DeviceQualifierStallsEp0In : Prop :=
  ∀ (h : ReqHead) (index : Byte) (wIndex wLength : BitVec 16) (s : State), CanEnter s → Ep0Free s →
    exec (.getDescriptorDeviceQualifier h index wIndex wLength) s
      = .next { s with
          ctrl := .awaitingRequest,
          bdt := { s.bdt with ep0In := inStalled s.bdt.ep0In, ep0Out := outArmed s.bdt.ep0Out false } }

/-- 41_control_transfer R101, R104, R106, R107: a dropped request arms nothing and changes nothing but CTRL,
whoever owns the descriptors. Log entry 6 (a row applied directly: the model's choice). -/
def Obligations.DroppedRequestsArmNothing : Prop :=
  ∀ (h : ReqHead) (b b' : Byte) (wValue wIndex wLength : BitVec 16) (s : State), CanEnter s →
    exec (.getDescriptorOther h b b' wIndex wLength) s = .next { s with ctrl := .awaitingRequest }
    ∧ exec (.stdOther h b wValue wIndex wLength) s = .next { s with ctrl := .awaitingRequest }
    ∧ exec (.reservedType h b wValue wIndex wLength) s = .next { s with ctrl := .awaitingRequest }

/-- 41_control_transfer R102, R103: SET_ADDRESS latches `wValue[6:0]`, acknowledges, and leaves ADDR as it is;
SET_CONFIGURATION is acknowledged, whatever its value, and changes nothing else. Log entry 6 (a row applied
directly: the model's choice). -/
def Obligations.AddressAndConfigurationAreAcknowledged : Prop :=
  ∀ (h : ReqHead) (wValue wIndex wLength : BitVec 16) (s : State), CanEnter s → Ep0Free s →
    exec (.setAddress h wValue wIndex wLength) s
      = .next { acknowledged s with pendAddr := some (BitVec.ofNat 7 (wValue.toNat % 128)) }
    ∧ exec (.setConfiguration h wValue wIndex wLength) s = .next (acknowledged s)

/-- 43_class_requests R123, R124, R128, R129, 41_control_transfer R105: a class or vendor request with a data stage
is staged for every code; one without is acknowledged for every code, and LINECODING keeps its value. Log entry 6
(a row applied directly: the model's choice). -/
def Obligations.ClassRequestsAreStagedOrAcknowledged : Prop :=
  ∀ (h : ReqHead) (b : Byte) (wValue wIndex wLength : BitVec 16) (s : State), CanEnter s → s.bdt.ep0Out.own = .cpu →
    (let t : State :=
      { s with ctrl := .awaitingPayload b, bdt := { s.bdt with ep0Out := outArmed s.bdt.ep0Out true } }
     exec (.classData h b wValue wIndex wLength) s = .next t ∧ exec (.vendorData h b wValue wIndex wLength) s = .next t)
    ∧ (s.bdt.ep0In.own = .cpu →
        exec (.classNodata h b wValue wIndex) s = .next (acknowledged s)
        ∧ exec (.vendorNodata h b wValue wIndex) s = .next (acknowledged s))

/-- 40_bdt_arming R89, R90, R91, R93, 41_control_transfer R97 to R100, R103, 43_class_requests R123, R124: while the SIE
owns a descriptor of endpoint 0, a request holds in the first arm that needs it: the arms before it are done, INISR stays 1,
and KISR holds that arm, the arms after it and the return. A dropped request arms nothing and holds nowhere
(DroppedRequestsArmNothing). That SET_ADDRESS has already latched PENDADDR where it holds, also over an earlier pending
address, is the model's choice of log entry 30 (41_control_transfer R102's pseudocode against its corner case). Log entry 6
(a row applied directly: the model's choice). -/
def Obligations.RequestsHoldOnAnArmedDescriptor : Prop :=
  ∀ (h : ReqHead) (b : Byte) (wValue wIndex wLength : BitVec 16) (s : State), CanEnter s →
    let latched : State := { s with pendAddr := some (BitVec.ofNat 7 (wValue.toNat % 128)) }
    let data (full : List Byte) (n : Nat) : ArmOp := .armIn 0 (some (full.take n)) n true
    let zlp : ArmOp := .armIn 0 none 0 true
    let rearm : List IsrOp := [.arm (.armOut 0 false), .ret]
    let afterData (full : List Byte) (n : Nat) : State :=
      { s with
        ram := memWrite s.ram s.bdt.ep0In.adr (full.take n),
        bdt := { s.bdt with ep0In := inArmed s.bdt.ep0In n true } }
    let afterZlp (u : State) : State := { u with bdt := { u.bdt with ep0In := inArmed u.bdt.ep0In 0 true } }
    let devLen := min wLength.toNat 18
    let blob (c : ConfigDesc) : List Byte := c.header ++ c.ifaces.flatMap fun i => i.iface ++ i.subs.flatten
    let blobLen (c : ConfigDesc) := min wLength.toNat (min 64 (blob c).length)
    let str (d : List Byte) : List Byte := [BitVec.ofNat 8 (2 + d.length), 0x03] ++ d
    let strLen (d : List Byte) := min wLength.toNat (min 64 (2 + d.length))
    (s.bdt.ep0In.own = .sie →
      exec (.getDescriptorDevice h b wIndex wLength) s
        = .next (holding s (.arm (data s.cfg.catalog.dev devLen) :: rearm))
      ∧ (∀ c, s.cfg.catalog.confs[b.toNat]? = some c →
          exec (.getDescriptorConfiguration h b wIndex wLength) s
            = .next (holding s (.arm (data (blob c) (blobLen c)) :: rearm)))
      ∧ (∀ d, s.cfg.catalog.strs[b.toNat]? = some d →
          exec (.getDescriptorString h b wIndex wLength) s = .next (holding s (.arm (data (str d) (strLen d)) :: rearm)))
      ∧ exec (.getDescriptorDeviceQualifier h b wIndex wLength) s = .next (holding s (.arm (.stallIn 0) :: rearm))
      ∧ exec (.setAddress h wValue wIndex wLength) s = .next (holding latched (.arm zlp :: rearm))
      ∧ ∀ i ∈ [Instr.setConfiguration h wValue wIndex wLength, .classNodata h b wValue wIndex,
            .vendorNodata h b wValue wIndex],
          exec i s = .next (holding s (.arm zlp :: rearm)))
    ∧ (s.bdt.ep0Out.own = .sie →
      (∀ i ∈ [Instr.classData h b wValue wIndex wLength, .vendorData h b wValue wIndex wLength],
        exec i s
          = .next { holding s [.arm (.armOut 0 true), .ret] with ctrl := .awaitingPayload b })
      ∧ (s.bdt.ep0In.own = .cpu →
        (s.cfg.catalog.dev.length = 18 →
          exec (.getDescriptorDevice h b wIndex wLength) s
            = .next (holding (afterData s.cfg.catalog.dev devLen) rearm))
        ∧ (∀ c, s.cfg.catalog.confs[b.toNat]? = some c →
            exec (.getDescriptorConfiguration h b wIndex wLength) s
              = .next (holding (afterData (blob c) (blobLen c)) rearm))
        ∧ (∀ d, s.cfg.catalog.strs[b.toNat]? = some d →
            exec (.getDescriptorString h b wIndex wLength) s = .next (holding (afterData (str d) (strLen d)) rearm))
        ∧ exec (.getDescriptorDeviceQualifier h b wIndex wLength) s
          = .next (holding { s with bdt := { s.bdt with ep0In := inStalled s.bdt.ep0In } } rearm)
        ∧ exec (.setAddress h wValue wIndex wLength) s = .next (holding (afterZlp latched) rearm)
        ∧ ∀ i ∈ [Instr.setConfiguration h wValue wIndex wLength, .classNodata h b wValue wIndex,
              .vendorNodata h b wValue wIndex],
            exec i s = .next (holding (afterZlp s) rearm)))

/-- 42_dispatcher R120, R121, 30_encoding R87, 00_scope R8: a SETUP row that holds and is continued by `ISR.RUN` after BUS
steps have freed the descriptors ends as if they had been free from the start (its completion stays queued meanwhile, R116);
continued before that, it changes nothing. And an atomic step of the ISR ends at the next hold point, whether the condition
there holds or not: an arm at which the invocation stands is done, and the next arm is left to do; a line `ISR` is that
first step and then `ISR.RUN`. Log entry 6 (a row applied directly) and log entry 2 (the line of one atomic step): the
model's choices. -/
def Obligations.HeldSetupResumesWhereItStopped : Prop :=
  (∀ (i : Instr) (s t : State) (bdt : Bdt) (ram : Memory) (q : List Completion) (ans : List Answer) (l : List Line),
    i.format = .setup64 → CanEnter s → s.fault = none → s.bdt.ep0In.own = .sie → exec i s = .next t → t.inisr = true →
    (bdt.ep0In.own = .cpu → bdt.ep0Out.own = .cpu → q ≠ [] →
      step { t with bdt := bdt, ram := ram, ustatq := q, answers := ans, feed := .isrRun :: l }
        = exec i { s with bdt := bdt, ram := ram, ustatq := q, answers := ans, feed := l })
    ∧ step { t with feed := .isrRun :: l } = .next { t with feed := l })
  ∧ (∀ (s : State) (a : ArmOp) (k : List IsrOp) (l : List Line),
    s.fault = none → s.inisr = true → s.kisr = .active (.arm a :: k) → s.feed = .proc :: l →
    (a.run s = .hold → step s = .next { s with feed := l })
    ∧ ∀ u b k', a.run s = .done u → k = .arm b :: k' → b.legal = true →
        step s = .next { u with kisr := .active (.arm b :: k'), feed := l })
  ∧ ∀ (s t : State) (l : List Line), s.fault = none → s.isrReady = true →
    step { s with feed := .proc :: .isrRun :: l } = .next t → t.fault = none →
    (t.inisr = true →
      (∃ a k, t.kisr = .active (.arm a :: k)) ∧ step t = step { s with feed := .isr :: l })
    ∧ (t.inisr = false → step { s with feed := .isr :: l } = .next { t with feed := l })

/-- 42_dispatcher R116, R119 to R121: a row that runs while an invocation is in progress does what it does outside, and
then the rest of that invocation follows. -/
def Obligations.RowInsideAnInvocation : Prop :=
  ∀ (i : Instr) (k : List IsrOp) (s t : State) (l : List Line),
    isIsrRow i = true → s.inisr = true → s.kisr = .active k → k.all IsrOp.legal = true → s.fault = none →
    exec i { s with inisr := false, kisr := .inactive } = .next t → t.inisr = false → t.fault = none →
    exec i { s with feed := l } = step { t with inisr := true, kisr := .active k, feed := .isrRun :: l }

/-! ## CLASSREQ8 -/

/-- 43_class_requests R125, R127, R128: at most LINECODING changes, and only for SET_LINE_CODING with seven bytes. -/
def Obligations.ClassRequestsTouchLineCodingAlone : Prop :=
  ∀ (b : Byte) (payload : Option (List Byte)) (s : State),
    (∀ d, payload = some d → 7 ≤ d.length →
      ∃ l : LineCoding, l.bytes = d.take 7
        ∧ exec (.clsSetLineCoding payload) s = .next { s with lineCoding := l })
    ∧ ((∀ d, payload = some d → d.length < 7) → exec (.clsSetLineCoding payload) s = .next s)
    ∧ exec (.clsSetControlLineState payload) s = .next s
    ∧ exec (.clsOther b payload) s = .next s

/-! ## OUTDONE8 and PID4 -/

/-- 41_control_transfer R94, 42_dispatcher R118, R119: EP0_SETUP runs the row of the packet in the EP0 OUT buffer,
and packet processing is enabled again after the row's arms. Log entry 6 (a row applied directly: the model's
choice). -/
def Obligations.SetupCompletionRunsItsRow : Prop :=
  ∀ (s : State) (i : Instr), CanEnter s → decode .setup64 (memRead s.ram s.bdt.ep0Out.adr 8) = .ok i →
    (Ep0Free s → ∃ t, exec i s = .next t ∧ exec .ep0Setup s = .next { t with pktdis := false })
    ∧ ∀ t k, exec i s = .next t → t.kisr = .active (k ++ [.ret]) →
        exec .ep0Setup s = .next { t with kisr := .active (k ++ [.pktdisOff, .ret]) }

/-- 41_control_transfer R108, 43_class_requests R126: an OUT packet on endpoint 0 is a status stage or the payload
of the request that waits for it. Log entry 6 (a row applied directly: the model's choice). -/
def Obligations.Ep0OutPacketEndsAStage : Prop :=
  ∀ s : State, CanEnter s →
    (s.ctrl = .awaitingRequest → s.bdt.ep0Out.own = .cpu →
      exec .ep0TokenOut s
        = .next { s with bdt := { s.bdt with ep0Out := outArmed s.bdt.ep0Out false }, pktdis := false })
    ∧ ∀ req, s.ctrl = .awaitingPayload req → Ep0Free s →
        ∃ u, exec (if req = 0x20 then .clsSetLineCoding (some (memRead s.ram s.bdt.ep0Out.adr s.bdt.ep0Out.cnt))
            else if req = 0x22 then .clsSetControlLineState (some (memRead s.ram s.bdt.ep0Out.adr s.bdt.ep0Out.cnt))
            else .clsOther req (some (memRead s.ram s.bdt.ep0Out.adr s.bdt.ep0Out.cnt))) s = .next u
          ∧ exec .ep0TokenOut s = .next { acknowledged u with pktdis := false }

/-- 42_dispatcher R118, R119: an OUT packet on the data endpoint goes to `rx_callback` with the received bytes,
whoever owns the descriptor; the completions without action write PKTDIS at endpoint 0 and nothing else. Log entry
6 (a row applied directly: the model's choice). -/
def Obligations.OtherOutCompletions : Prop :=
  ∀ (endp pid : BitVec 4) (s : State), CanEnter s →
    exec .dataTokenOut s = exec (.rxCallback (memRead s.ram s.bdt.ep2Out.adr s.bdt.ep2Out.cnt)) s
    ∧ (s.bdt.ep2Out.own = .cpu →
        ∃ t, exec .dataTokenOut s = .next t
          ∧ t = { s with
              rxbuf := t.rxbuf, wr := t.wr, occ := t.occ, diag := t.diag,
              outTog := { s.outTog with e2 := !s.outTog.e2 },
              bdt := { s.bdt with ep2Out := outArmed s.bdt.ep2Out (!s.outTog.e2) } })
    ∧ ∀ i ∈ [Instr.epxSetup endp, .epxTokenOut endp, .outAck endp, .outOtherPid endp pid],
        exec i s = .next { s with pktdis := if endp = 0 then false else s.pktdis }

/-- 30_encoding R72, R83, 42_dispatcher R118, and the model's choice of log entry 7 for what a row of format PID4 does: it
is the dispatcher's classification of that PID. With an OUT-direction completion at the head of USTATQ its OUTDONE8 row
runs; otherwise nothing is classified and nothing changes. -/
def Obligations.PidRowsClassify : Prop :=
  ∀ s : State, CanEnter s →
    (∀ i ∈ [Instr.pidOut, .pidIn, .pidSof, .pidSetup, .pidData0, .pidData1, .pidAck, .pidNak, .pidStall],
      (∀ c, s.ustatq.head? = some c → c.dir = .inn) → exec i s = .next s)
    ∧ ∀ e q, s.ustatq = ⟨e, .out⟩ :: q →
        exec .pidOut s = exec (if e = 0 then .ep0TokenOut else if e = 2 then .dataTokenOut else .epxTokenOut e) s
        ∧ exec .pidSetup s = exec (if e = 0 then .ep0Setup else .epxSetup e) s
        ∧ exec .pidAck s = .next { s with pktdis := if e = 0 then false else s.pktdis }
        ∧ ∀ i ∈ [Instr.pidIn, .pidSof, .pidData0, .pidData1, .pidNak, .pidStall],
            exec i s = .next { s with pktdis := if e = 0 then false else s.pktdis }

/-! ## IRQ16 -/

/-- 42_dispatcher R113, R120: a bus reset clears RSTF and touches nothing else. -/
def Obligations.ResetInvocationClearsRstfAlone : Prop :=
  ∀ (errf stallf trnf : Bool) (dir : Dir) (endp : BitVec 4) (s : State), CanEnter s →
    exec (.dispatchReset errf stallf trnf dir endp) s = .next { s with rstf := false }

/-- 42_dispatcher R112, R114, R122: an error clears UEIR and the invocation goes on to the checks after it, as the row of
the flags still set would (with none set it returns). The OUT descriptor a completion names exists (a fault would leave
UEIR as it was, 60_exceptions R158; OutCompletionRunsItsRow). -/
def Obligations.ErrorInvocationClearsUeirAndGoesOn : Prop :=
  ∀ (stallf trnf : Bool) (dir : Dir) (endp : BitVec 4) (s : State), CanEnter s →
    let s0 : State := { s with ueir := 0 }
    (s0.irq = true →
      (stallf = true → exec (.dispatchError stallf trnf dir endp) s = exec (.dispatchStall trnf dir endp) s0)
      ∧ (stallf = false → trnf = true → dir = .inn →
          exec (.dispatchError stallf trnf dir endp) s = exec (.dispatchTrnIn endp) s0)
      ∧ (stallf = false → trnf = true → dir = .out → endp = 0 ∨ endp = 2 →
          exec (.dispatchError stallf trnf dir endp) s = exec (.dispatchTrnOut endp) s0))
    ∧ (stallf = false → trnf = false → exec (.dispatchError stallf trnf dir endp) s = .next s0)

/-- 42_dispatcher R115: the stall release, for every endpoint whose stall condition is set. -/
def Obligations.StallInvocationReleasesStalledEndpoints : Prop :=
  ∀ (trnf : Bool) (dir : Dir) (endp : BitVec 4) (s : State), CanEnter s →
    let free (stalled : Bool) (b : BD) : BD :=
      if stalled then { b with stall := false, own := .cpu, statBy := .cpu } else b
    exec (.dispatchStall trnf dir endp) s
      = .next { s with
          stallf := false,
          epStall := ⟨false, false, false⟩,
          bdt := { s.bdt with
            ep0In := free s.epStall.e0 s.bdt.ep0In,
            ep1In := free s.epStall.e1 s.bdt.ep1In,
            ep2In := free s.epStall.e2 s.bdt.ep2In } }

/-- 42_dispatcher R117, R116, 44_byte_stream R140, 70_reset R183: an IN completion applies a pending address, on any
endpoint, or else calls the endpoint's callback; then it leaves USTATQ. -/
def Obligations.InCompletionAppliesAddressOrCallsBack : Prop :=
  ∀ (endp : BitVec 4) (s : State), CanEnter s →
    (∀ a, s.pendAddr = some a →
      exec (.dispatchTrnIn endp) s = .next { s with addr := a, pendAddr := none, ustatq := s.ustatq.tail })
    ∧ (s.pendAddr = none → endp = 2 →
        exec (.dispatchTrnIn endp) s = .next { s with txReady := true, ustatq := s.ustatq.tail })
    ∧ (s.pendAddr = none → endp ≠ 2 → exec (.dispatchTrnIn endp) s = .next { s with ustatq := s.ustatq.tail })

/-- 42_dispatcher R116, R118: an OUT-direction completion runs the OUTDONE8 row of its endpoint and of the PID the
SIE recorded, and leaves USTATQ after the handler's arms. One of an endpoint without an OUT descriptor, which no run
queues, raises F3 and leaves the state as it was, with FAULT: the model's inference of log entry 22. Log entry 6 (a row
applied directly: the model's choice). -/
def Obligations.OutCompletionRunsItsRow : Prop :=
  (∀ (endp : BitVec 4) (sl : Slot) (i : Instr) (s : State), CanEnter s → slotOf endp .out = some sl →
    decode .outdone8 [outDoneByte endp (s.bd sl).pid] = .ok i →
    ((s.bd sl).own = .cpu → (endp = 0 → s.bdt.ep0In.own = .cpu) →
      ∃ t, exec i s = .next t ∧ exec (.dispatchTrnOut endp) s = .next { t with ustatq := s.ustatq.tail })
    ∧ ∀ t k, exec i s = .next t → t.kisr = .active (k ++ [.ret]) →
        exec (.dispatchTrnOut endp) s = .next { t with kisr := .active (k ++ [.dequeue, .ret]) })
  ∧ ∀ (endp : BitVec 4) (s : State), CanEnter s → s.fault = none → dirEnabled endp .out = false →
      exec (.dispatchTrnOut endp) s = .next { s with fault := some .noDescriptor }
      ∧ exec (.dispatchError false true .out endp) s = .next { s with fault := some .noDescriptor }

/-! ## CALL8 -/

/-- 40_bdt_arming R89, R93: `arm_out` in FG and in the ISR: the writes, the hold, and fault F3 for a descriptor that does
not exist, which leaves the state as it was, with FAULT. -/
def Obligations.ArmOutArmsOrHolds : Prop :=
  ∀ (ep : BitVec 4) (t : Bool) (s : State),
    (∀ sl, slotOf ep .out = some sl → FgFree s →
      ((s.bd sl).own = .cpu → exec (.armOut ep t) s = .next (s.setBd sl (outArmed (s.bd sl) t)))
      ∧ ((s.bd sl).own = .sie → exec (.armOut ep t) s = .next { s with kfg := .arm (.armOut ep t) }))
    ∧ (∀ sl, slotOf ep .out = some sl → s.inisr = true → s.kisr = .active [.ret] →
      ((s.bd sl).own = .cpu →
        exec (.armOut ep t) s = .next { s.setBd sl (outArmed (s.bd sl) t) with inisr := false, kisr := .inactive })
      ∧ ((s.bd sl).own = .sie →
        exec (.armOut ep t) s = .next { s with kisr := .active [.arm (.armOut ep t), .ret] }))
    ∧ (s.fault = none → FgFree s ∨ (s.inisr = true ∧ ∃ k, s.kisr = .active k) → dirEnabled ep .out = false →
        exec (.armOut ep t) s = .next { s with fault := some .noDescriptor })

/-- 40_bdt_arming R90, R93, 60_exceptions R160: `arm_in` in FG and in the ISR: the copy, the writes, and the hold, at which
the whole packet buffer and the descriptor are unchanged; and the faults F1, F2, F3 in this order, whoever owns the
descriptor, which leave the state as it was, with FAULT. The rules do not say what is copied from positions at which
`data` has no byte: that the row then runs and stores `len` bytes, of which those are open, is the model's choice, log
entry 11, in FG and in the ISR. -/
def Obligations.ArmInCopiesArmsOrHolds : Prop :=
  ∀ (ep : BitVec 4) (data : Option (List Byte)) (len : BitVec 16) (t : Bool) (s : State),
    (∀ sl, slotOf ep .inn = some sl → len.toNat ≤ 64 → (data = none → len = 0) → FgFree s →
      ((s.bd sl).own = .cpu → data = none →
        exec (.armIn ep data len t) s = .next (s.setBd sl (inArmed (s.bd sl) 0 t)))
      ∧ (∀ d, (s.bd sl).own = .cpu → data = some d → len.toNat ≤ d.length →
        exec (.armIn ep data len t) s
          = .next ((s.setRam (memWrite s.ram (s.bd sl).adr (d.take len.toNat))).setBd sl
              (inArmed (s.bd sl) len.toNat t)))
      ∧ (∀ d, (s.bd sl).own = .cpu → data = some d → d.length < len.toNat →
        ∃ (w : List Byte) (n : Nat), w.length = len.toNat ∧ w.take d.length = d
          ∧ exec (.armIn ep data len t) s
            = .next { (s.setRam (memWrite s.ram (s.bd sl).adr w)).setBd sl (inArmed (s.bd sl) len.toNat t)
                with free := n })
      ∧ ((s.bd sl).own = .sie →
        exec (.armIn ep data len t) s = .next { s with kfg := .arm (.armIn ep data len.toNat t) }))
    ∧ (∀ sl, slotOf ep .inn = some sl → len.toNat ≤ 64 → (data = none → len = 0) → s.inisr = true →
        s.kisr = .active [.ret] →
      (∀ d, (s.bd sl).own = .cpu → data = some d → len.toNat ≤ d.length →
        exec (.armIn ep data len t) s
          = .next { (s.setRam (memWrite s.ram (s.bd sl).adr (d.take len.toNat))).setBd sl
              (inArmed (s.bd sl) len.toNat t) with inisr := false, kisr := .inactive })
      ∧ ((s.bd sl).own = .cpu → data = none →
        exec (.armIn ep data len t) s
          = .next { s.setBd sl (inArmed (s.bd sl) 0 t) with inisr := false, kisr := .inactive })
      ∧ (∀ d, (s.bd sl).own = .cpu → data = some d → d.length < len.toNat →
        ∃ (w : List Byte) (n : Nat), w.length = len.toNat ∧ w.take d.length = d
          ∧ exec (.armIn ep data len t) s
            = .next { (s.setRam (memWrite s.ram (s.bd sl).adr w)).setBd sl (inArmed (s.bd sl) len.toNat t)
                with free := n, inisr := false, kisr := .inactive })
      ∧ ((s.bd sl).own = .sie →
        exec (.armIn ep data len t) s = .next { s with kisr := .active [.arm (.armIn ep data len.toNat t), .ret] }))
    ∧ (s.fault = none → FgFree s ∨ (s.inisr = true ∧ ∃ k, s.kisr = .active k) →
      (64 < len.toNat → exec (.armIn ep data len t) s = .next { s with fault := some .armInOverlength })
      ∧ (len.toNat ≤ 64 → 0 < len.toNat → data = none →
          exec (.armIn ep data len t) s = .next { s with fault := some .armInNodata })
      ∧ (len.toNat ≤ 64 → (data = none → len = 0) → dirEnabled ep .inn = false →
          exec (.armIn ep data len t) s = .next { s with fault := some .noDescriptor }))

/-- 40_bdt_arming R91, R93: `stall_in` in FG and in the ISR, `dts` unchanged; the hold; and fault F3. -/
def Obligations.StallInStallsOrHolds : Prop :=
  ∀ (ep : BitVec 4) (s : State),
    (∀ sl, slotOf ep .inn = some sl → FgFree s →
      ((s.bd sl).own = .cpu → exec (.stallIn ep) s = .next (s.setBd sl (inStalled (s.bd sl))))
      ∧ ((s.bd sl).own = .sie → exec (.stallIn ep) s = .next { s with kfg := .arm (.stallIn ep) }))
    ∧ (∀ sl, slotOf ep .inn = some sl → s.inisr = true → s.kisr = .active [.ret] →
      ((s.bd sl).own = .cpu →
        exec (.stallIn ep) s = .next { s.setBd sl (inStalled (s.bd sl)) with inisr := false, kisr := .inactive })
      ∧ ((s.bd sl).own = .sie → exec (.stallIn ep) s = .next { s with kisr := .active [.arm (.stallIn ep), .ret] }))
    ∧ (s.fault = none → FgFree s ∨ (s.inisr = true ∧ ∃ k, s.kisr = .active k) → dirEnabled ep .inn = false →
        exec (.stallIn ep) s = .next { s with fault := some .noDescriptor })

/-- 10_state R20, R27: the descriptors that exist are those of the enabled directions of the endpoint table, each its own;
and the callbacks of the table. -/
def Obligations.EndpointTableAndItsDescriptors : Prop :=
  ∀ (ep : BitVec 4) (dir : Dir),
    (slotOf ep dir).isSome = dirEnabled ep dir
    ∧ (dirEnabled ep dir = true ↔ ep = 0 ∨ (ep = 1 ∧ dir = .inn) ∨ ep = 2)
    ∧ (∀ ep' dir' sl, slotOf ep dir = some sl → slotOf ep' dir' = some sl → ep = ep' ∧ dir = dir')
    ∧ (∀ sl : Slot, ∃ ep' dir', slotOf ep' dir' = some sl)
    ∧ outCallback ep = (if ep = 2 then some .rx else none) ∧ inCallback ep = (if ep = 2 then some .txDone else none)

/-- 44_byte_stream R131 to R134, R140: `rx_callback`: what is stored, what is dropped and recorded, the toggle and the
re-arm; and `tx_done_callback`. A row applied directly runs as an invocation that starts at it: the model's choice, log
entry 6. -/
def Obligations.CallbacksOfTheDataEndpoint : Prop :=
  (∀ (d : List Byte) (s : State), CanEnter s → RingOk s → s.bdt.ep2Out.own = .cpu →
    let n := min d.length (s.cfg.rxCap - s.occ.toNat)
    ∃ t, exec (.rxCallback d) s = .next t
      ∧ ringBytes t = ringBytes s ++ d.take n
      ∧ t.occ.toNat = s.occ.toNat + n
      ∧ t.rxbuf.length = s.rxbuf.length
      ∧ (∀ i, (∀ j, j < n → i ≠ (s.wr + j) % s.cfg.rxCap) → t.rxbuf[i]? = s.rxbuf[i]?)
      ∧ t = { s with
          rxbuf := t.rxbuf, wr := (s.wr + n) % s.cfg.rxCap, occ := t.occ,
          diag := if n = d.length then s.diag else s.diag ++ [.rxOverflow (d.length - n)],
          outTog := { s.outTog with e2 := !s.outTog.e2 },
          bdt := { s.bdt with ep2Out := outArmed s.bdt.ep2Out (!s.outTog.e2) } })
  ∧ ∀ s : State, CanEnter s → exec .txDoneCallback s = .next { s with txReady := true }

/-- 44_byte_stream R135, R137, R139, 60_exceptions R171: a call starts its operation and stands before or behind the
operation's first hold; an empty string returns at once; then the numbered lines follow, one step each, when the processor
side has no interrupt to take. A program line FG.READ, FG.WRITE or FG.PUTC (30_encoding R87) is the call and then FG.RUN in
its place, unless the call has returned; and FG.RUN ends at a hold whose condition is false. That the call and line 1 are
one step is the model's inference of log entry 17. -/
def Obligations.ForegroundCallsAndLines : Prop :=
  (∀ (b : Byte) (src : List Byte) (s : State), FgFree s →
    exec .readCharacter s = .next { s with kfg := if s.occ = 0 then .read1 else .read2 }
    ∧ (src ≠ [] → exec (.writeString src) s
        = .next { s with kfg := if s.txReady then .write2 src 0 else .write1 src 0 })
    ∧ exec (.writeString []) s = .next s
    ∧ exec (.writeCharacter b) s = .next { s with kfg := if s.txReady then .write2 [b] 0 else .write1 [b] 0 })
  ∧ (∀ (b : Byte) (src : List Byte) (l : List Line) (s : State), FgFree s → s.fault = none →
    step { s with feed := .fgRead :: l }
      = .next { s with kfg := if s.occ = 0 then .read1 else .read2, feed := .fgRun :: l }
    ∧ (src ≠ [] → step { s with feed := .fgWrite src :: l }
        = .next { s with kfg := if s.txReady then .write2 src 0 else .write1 src 0, feed := .fgRun :: l })
    ∧ step { s with feed := .fgWrite [] :: l } = .next { s with feed := l }
    ∧ step { s with feed := .fgPutc b :: l }
        = .next { s with kfg := if s.txReady then .write2 [b] 0 else .write1 [b] 0, feed := .fgRun :: l })
  ∧ (∀ (l : List Line) (s : State), s.fault = none → s.inisr = false → s.isrReady = false → s.feed = .fgRun :: l →
    (s.kfg = .read1 → s.occ = 0 → step s = .next { s with feed := l })
    ∧ (∀ src off, s.kfg = .write1 src off → s.txReady = false → step s = .next { s with feed := l }))
  ∧ ∀ s : State, s.fault = none → s.feed = [] → s.inisr = false → s.isrReady = false →
    (s.kfg = .idle → step s = .next s)
    ∧ (s.kfg = .read1 → step s = .next (if s.occ = 0 then s else { s with kfg := .read2 }))
    ∧ (∀ v, s.kfg = .read2 → s.rxbuf[s.rd]? = some v → step s = .next { s with kfg := .read3 v })
    ∧ (∀ v, s.kfg = .read3 v → step s = .next { s with gie := false, kfg := .read4 v })
    ∧ (∀ v, s.kfg = .read4 v →
        step s = .next { s with rd := (s.rd + 1) % s.cfg.rxCap, occ := s.occ - 1, kfg := .read5 v })
    ∧ (∀ v, s.kfg = .read5 v → step s = .next { s with gie := true, kfg := .read6 v })
    ∧ (∀ v, s.kfg = .read6 v → step s = .next { s with returned := s.returned ++ [v], kfg := .idle })
    ∧ (∀ src off, s.kfg = .write1 src off →
        step s = .next (if s.txReady then { s with kfg := .write2 src off } else s))
    ∧ (∀ src off, s.kfg = .write2 src off →
        step s = .next { s with txReady := false, kfg := .write3 src off (min (src.length - off) 64) })
    ∧ (∀ src off n, s.kfg = .write3 src off n → s.bdt.ep2In.own = .sie → n ≤ 64 → step s = .next s)
    ∧ (∀ src off n, s.kfg = .write4 src off n →
        step s = .next { s with
          inTog := { s.inTog with e2 := !s.inTog.e2 },
          kfg := if off + n < src.length then .write1 src (off + n) else .idle })
    ∧ (∀ ep t, s.kfg = .arm (.armOut ep t) → dirEnabled ep .out = true →
        step s = exec (.armOut ep t) { s with kfg := .idle })
    ∧ (∀ ep data n t, s.kfg = .arm (.armIn ep data n t) → (ArmOp.armIn ep data n t).legal = true →
        step s = exec (.armIn ep data (BitVec.ofNat 16 n) t) { s with kfg := .idle })
    ∧ (∀ ep, s.kfg = .arm (.stallIn ep) → dirEnabled ep .inn = true →
        step s = exec (.stallIn ep) { s with kfg := .idle })

/-- 44_byte_stream R135, R136, 60_exceptions R171: called with a byte in the ring and no interrupt pending,
`read_character` returns the oldest byte in six steps, and the ring keeps the others, as the line FG.READ of 30_encoding R87
and as the call's first step with FG.RUN after it (log entry 17). -/
def Obligations.ReadCharacterReturnsTheOldestByte : Prop :=
  ∀ (s : State) (b : Byte) (bs : List Byte) (l : List Line),
    FgFree s → s.fault = none → s.irq = false → RingOk s → ringBytes s = b :: bs →
    s.feed = .fgRead :: l ∨ s.feed = .word .call8 [0x01] :: .fgRun :: l →
    ∃ t : State, Host.Core.run core 6 s = .next t
      ∧ ringBytes t = bs
      ∧ t = { s with
          rd := (s.rd + 1) % s.cfg.rxCap, occ := s.occ - 1, gie := true, returned := s.returned ++ [b], feed := l }

/-- 44_byte_stream R137, R138, R141: with TXREADY = 1, the data-IN descriptor free and no interrupt pending, one chunk of a
`write_string` is four steps: TXREADY is cleared, the chunk is armed with the current toggle, and the toggle inverts. -/
def Obligations.WriteStringArmsOneChunk : Prop :=
  ∀ (s : State) (src : List Byte) (off : Nat) (l : List Line),
    s.fault = none → s.inisr = false → s.irq = false → s.kfg = .write1 src off → off < src.length →
    s.txReady = true → s.bdt.ep2In.own = .cpu → s.feed = .fgRun :: l →
    let n := min (src.length - off) 64
    Host.Core.run core 4 s = .next
      { s with
        txReady := false,
        ram := memWrite s.ram s.bdt.ep2In.adr ((src.drop off).take n),
        bdt := { s.bdt with ep2In := inArmed s.bdt.ep2In n s.inTog.e2 },
        inTog := { s.inTog with e2 := !s.inTog.e2 },
        kfg := if off + n < src.length then .write1 src (off + n) else .idle,
        feed := if off + n < src.length then .fgRun :: l else l }

/-- 44_byte_stream R138: how many chunks a string has, how long each is, and that together they are the string. -/
def Obligations.ChunksCoverTheString : Prop :=
  ∀ src : List Byte, src ≠ [] →
    let k := (src.length + 63) / 64
    (∀ j, writeFrom src (64 * j) = if j < k then .write1 src (64 * j) else .idle)
    ∧ (∀ j, j + 1 < k → chunkLen src.length (64 * j) = 64)
    ∧ chunkLen src.length (64 * (k - 1)) = src.length - 64 * (k - 1)
    ∧ 1 ≤ chunkLen src.length (64 * (k - 1)) ∧ chunkLen src.length (64 * (k - 1)) ≤ 64
    ∧ ((List.range k).map fun j => chunk src (64 * j) (chunkLen src.length (64 * j))).flatten = src

/-! ## BUSEV8 -/

/-- 45_sie_bus_agent R145: the four filters of a token event. -/
def Obligations.TokenFilters : Prop :=
  ∀ (a : BitVec 7) (ep : BitVec 4) (t : Bool) (p : SetupPkt) (d : List Byte) (s : State),
    (a ≠ s.addr →
      exec (.busSetup a ep p) s = .next (s.answer .none) ∧ exec (.busOut a ep t d) s = .next (s.answer .none)
        ∧ exec (.busIn a ep) s = .next (s.answer .none))
    ∧ (a = s.addr →
        (dirEnabled ep .out = false →
          exec (.busSetup a ep p) s = .next (s.answer .none) ∧ exec (.busOut a ep t d) s = .next (s.answer .none))
        ∧ (dirEnabled ep .inn = false → exec (.busIn a ep) s = .next (s.answer .none)))
    ∧ (a = s.addr → s.pktdis = true →
        exec (.busSetup a 0 p) s = .next (s.answer .none)
        ∧ (dirEnabled ep .out = true → exec (.busOut a ep t d) s = .next (s.answer .nak))
        ∧ (dirEnabled ep .inn = true → exec (.busIn a ep) s = .next (s.answer .nak)))
    ∧ (a = s.addr → s.pktdis = false → s.cfg.ustatDepth ≤ s.ustatq.length →
        exec (.busSetup a 0 p) s = .next (s.answer .none)
        ∧ (∀ sl, slotOf ep .out = some sl → (s.bd sl).own = .sie → (s.bd sl).stall = false →
            ¬(s.cfg.toggleCheck = true ∧ t ≠ (s.bd sl).dts) → exec (.busOut a ep t d) s = .next (s.answer .nak))
        ∧ (∀ sl, slotOf ep .inn = some sl → (s.bd sl).own = .sie → (s.bd sl).stall = false →
            exec (.busIn a ep) s = .next (s.answer .nak)))

/-- 45_sie_bus_agent R147, R148: an accepted SETUP, whatever the armed toggle and whatever `bd[0][IN]` holds; and the two
that are ignored. -/
def Obligations.SetupIsAcceptedOrIgnored : Prop :=
  ∀ (a : BitVec 7) (ep : BitVec 4) (p : SetupPkt) (s : State), a = s.addr →
    (s.pktdis = false → s.ustatq.length < s.cfg.ustatDepth → s.bdt.ep0Out.own = .sie →
      exec (.busSetup a 0 p) s
        = .next { s with
            ram := memWrite s.ram s.bdt.ep0Out.adr [p.p0, p.p1, p.p2, p.p3, p.p4, p.p5, p.p6, p.p7],
            bdt := { s.bdt with
              ep0Out := { s.bdt.ep0Out with cnt := 8, pid := 0b1101, own := .cpu, statBy := .sie } },
            pktdis := true,
            ustatq := s.ustatq ++ [⟨0, .out⟩],
            answers := s.answers ++ [.ack] })
    ∧ (ep ≠ 0 → exec (.busSetup a ep p) s = .next (s.answer .none))
    ∧ (s.bdt.ep0Out.own = .cpu → exec (.busSetup a 0 p) s = .next (s.answer .none))

/-- 45_sie_bus_agent R149, R150: an OUT packet past the filters is received, discarded as a duplicate, NAKed or stalled. -/
def Obligations.OutPacketIsReceivedOrTurnedAway : Prop :=
  ∀ (ep : BitVec 4) (t : Bool) (d : List Byte) (sl : Slot) (s : State),
    slotOf ep .out = some sl → s.pktdis = false → s.ustatq.length < s.cfg.ustatDepth →
    ((s.bd sl).own = .sie → (s.bd sl).stall = false → ¬(s.cfg.toggleCheck = true ∧ t ≠ (s.bd sl).dts) →
      exec (.busOut s.addr ep t d) s
        = .next { (s.setRam (memWrite s.ram (s.bd sl).adr d)).setBd sl
              { s.bd sl with cnt := d.length, pid := 0b0001, own := .cpu, statBy := .sie } with
            ustatq := s.ustatq ++ [⟨ep, .out⟩], answers := s.answers ++ [.ack] })
    ∧ ((s.bd sl).own = .sie → (s.bd sl).stall = false → s.cfg.toggleCheck = true → t ≠ (s.bd sl).dts →
        exec (.busOut s.addr ep t d) s = .next (s.answer .ack))
    ∧ ((s.bd sl).own = .cpu → exec (.busOut s.addr ep t d) s = .next (s.answer .nak))
    ∧ ((s.bd sl).own = .sie → (s.bd sl).stall = true →
        exec (.busOut s.addr ep t d) s
          = .next { s with
              stallf := true, epStall := s.epStall.set ep true, answers := s.answers ++ [.stall] })

/-- 45_sie_bus_agent R151 to R153, 30_encoding R73: an IN token past the filters is answered with the armed packet, with
STALL (for which the completion room does not matter) or with NAK. -/
def Obligations.InTokenIsAnswered : Prop :=
  ∀ (ep : BitVec 4) (sl : Slot) (s : State), slotOf ep .inn = some sl → s.pktdis = false →
    ((s.bd sl).own = .sie → (s.bd sl).stall = false → s.ustatq.length < s.cfg.ustatDepth →
      exec (.busIn s.addr ep) s
        = .next { s.setBd sl { s.bd sl with pid := 0b1001, own := .cpu, statBy := .sie } with
            ustatq := s.ustatq ++ [⟨ep, .inn⟩],
            answers := s.answers ++ [.data (s.bd sl).dts (memRead s.ram (s.bd sl).adr (s.bd sl).cnt)] })
    ∧ ((s.bd sl).own = .sie → (s.bd sl).stall = true →
        exec (.busIn s.addr ep) s
          = .next { s with
              stallf := true, epStall := s.epStall.set ep true, answers := s.answers ++ [.stall] })
    ∧ ((s.bd sl).own = .cpu → exec (.busIn s.addr ep) s = .next (s.answer .nak))

/-- 45_sie_bus_agent R146, R154, 30_encoding R76: a bus reset and a link error, which no filter stops. -/
def Obligations.BusResetAndErrorSetTheirFlags : Prop :=
  ∀ s : State,
    exec .busReset s
      = .next { s with
          rstf := true, addr := if s.cfg.resetClearsAddr then 0 else s.addr, answers := s.answers ++ [.none] }
    ∧ ∀ k : ErrKind, ∃ t, exec (.busError k) s = .next t
        ∧ t = { s with ueir := t.ueir, answers := s.answers ++ [.none] }
        ∧ ∀ n < 8, t.ueir.getLsbD n = (s.ueir.getLsbD n || n == ErrKind.bit k)

/-- 45_sie_bus_agent R144, R156, 10_state R44: every bus event completes from every state with exactly one answer, and
writes nothing but USB RAM, descriptors, ADDR, RSTF, STALLF, UEIR, USTATQ, PKTDIS and EPSTALL. -/
def Obligations.BusEventsCompleteAndSpareTheEngine : Prop :=
  ∀ (i : Instr) (s : State), i.format = .busev8 →
    ∃ t a, exec i s = .next t ∧ t.answers = s.answers ++ [a]
      ∧ t = { s with
          ram := t.ram, bdt := t.bdt, addr := t.addr, rstf := t.rstf, stallf := t.stallf, ueir := t.ueir,
          ustatq := t.ustatq, pktdis := t.pktdis, epStall := t.epStall, answers := t.answers }
      ∧ (t.ustatq = s.ustatq ∨ ∃ c, t.ustatq = s.ustatq ++ [c])
      ∧ (s.pktdis = true → t.pktdis = true ∧ t.bdt = s.bdt ∧ t.ram = s.ram ∧ t.ustatq = s.ustatq)

/-! ## Ownership and memory -/

/-- 10_state R21, 20_memory R55, 42_dispatcher R115, R121, 70_reset R181: no processor-side step writes a descriptor the SIE
owns, but for the stall release, nor a byte of its packet buffer: no row but INIT and the bus events, no step of FG, and no
step of the machine whose line is neither a bus event nor INIT, hence none of the ISR from a hold point either. A step of
the machine releases only as the dispatcher does, where an invocation starts with STALLF = 1 and RSTF = 0. That the
processor side has written a released descriptor's STAT last is log entry 13. -/
def Obligations.ProcessorSparesWhatTheSieOwns : Prop :=
  (∀ (i : Instr) (s t : State), i.format ≠ .busev8 → i ≠ .init → exec i s = .next t →
    SparesSie (fun ep => i.format = .irq16 ∧ s.epStall.get ep = true) s t)
  ∧ (∀ s t : State, fgOutcome s = .next t → SparesSie (fun _ => False) s t)
  ∧ ∀ s t : State, (∀ l rest, s.feed = l :: rest → isProcessorLine l = true) → step s = .next t →
      SparesSie (fun ep => s.isrReady = true ∧ s.rstf = false ∧ s.stallf = true ∧ s.epStall.get ep = true) s t

/-- 10_state R21, R44, 20_memory R55: a bus event writes no descriptor the CPU owns, nor a byte of its packet buffer. -/
def Obligations.BusSparesWhatTheCpuOwns : Prop :=
  ∀ (i : Instr) (s t : State), i.format = .busev8 → i.wellFormed = true → exec i s = .next t →
    ∀ sl, (s.bd sl).own = .cpu →
      t.bd sl = s.bd sl
      ∧ (MemOk s → BdtOk s → bufAddrsWf s.cfg.bufAddr = true →
          ∀ n, n < 64 → t.ram.get (bufAddr (s.bd sl).adr n) = s.ram.get (bufAddr (s.bd sl).adr n))

/-- 20_memory R47, R48: which bytes of USB RAM a row stores to: the first `Spec0.storedLen` bytes of the packet buffer
`Spec0.storedIn` names, and no other byte changes. -/
def Obligations.StoredBytesAndNoOthers : Prop :=
  ∀ (i : Instr) (s t : State), MemOk s → s.kisr = .inactive → exec i s = .next t →
    ∀ a : Nat, (∀ n, n < storedLen i s → a ≠ bufAddr (storedIn i s) n) → t.ram.get a = s.ram.get a

/-! ## Steps -/

/-- 30_encoding R87, 60_exceptions R158: a line whose record decodes runs that operation, with the line taken off the
program. R87 knows bus events, public calls and ISR lines; that any row may be a line is the model's choice: INIT always
(log entry 19), a row of the ISR context under the entry condition of 42_dispatcher R111, an IRQ16 row if the registers
also show its word, an arming operation where an FG line may stand (log entry 6). And the model's conventions of log
entries 4 and 5: a placed word of the opcode table that decodes is run by the next step, from the state with the interrupt
flags that such a line needs, and no other change. -/
def Obligations.StepRunsTheDecodedLine : Prop :=
  (∀ (s : State) (f : Format) (bs : List Byte) (i : Instr) (rest : List Line),
    s.fault = none → s.feed = .word f bs :: rest → decode f bs = .ok i →
    (f = .busev8 ∨ i = .init
      ∨ ((isIsrRow i = true ∨ f = .classreq8) ∧ s.isrReady = true)
      ∨ (f = .irq16 ∧ s.isrReady = true ∧ irqShown i s = true)
      ∨ (f = .call8 ∧ isIsrRow i = false ∧ s.inisr = false ∧ s.isrReady = false)) →
    step s = exec i { s with feed := rest })
  ∧ ∀ (s : State) (nbits w : Nat) (i : Instr),
    s.fault = none → s.inisr = false → s.gie = true → s.irq = false → decodeTableWord nbits w = some i →
    ∃ t : State, step (s.withFetchWord nbits w) = exec i t
      ∧ t = { s with rstf := t.rstf, ueir := t.ueir, stallf := t.stallf, ustatq := t.ustatq }
      ∧ (i.format = .busev8 ∨ (i.format = .call8 ∧ isIsrRow i = false) → t = s)
      ∧ (isIsrRow i = true ∨ i.format = .classreq8 → t.isrReady = true ∧ ∃ c, t = { s with ustatq := [c] })
      ∧ (i.format = .irq16 → t.isrReady = true ∧ irqShown i t = true)

/-- 42_dispatcher R111, R112, R120, 60_exceptions R167 to R169, 30_encoding R83: exactly when IRQ = 1, GIE = 1 and
INISR = 0, the next processor-side step is an invocation, which runs the row of the flags and of the head of USTATQ; FG's
continuation and GIE are kept. That the word's record is UIR then USTAT is the model's choice of layout, log entry 3. -/
def Obligations.InterruptRunsTheRowOfTheFlags : Prop :=
  ∀ s : State, s.fault = none → s.feed = [] →
    (s.isrReady = true ↔
      (s.rstf = true ∨ s.ueir ≠ 0 ∨ s.stallf = true ∨ s.ustatq ≠ []) ∧ s.gie = true ∧ s.inisr = false)
    ∧ (s.isrReady = true →
        step s = exec (irqRow s) s
        ∧ decode .irq16 [s.uir, s.ustat] = .ok (irqRow s) ∧ irqShown (irqRow s) s = true
        ∧ ∃ t, step s = .next t ∧ t.kfg = s.kfg ∧ t.gie = s.gie ∧ t.feed = [])

/-- 42_dispatcher R111, R121, 20_memory R57, R60, 60_exceptions R166, R171: while INISR = 1 FG takes no step and no
invocation starts; while GIE = 0 no invocation starts; and whatever the program's line is, only IRQ = 1 with GIE = 1 and
INISR = 0 leads into the ISR, and between DI and EI no line but a bus event, INIT and FG's own changes anything but the
program (log entries 2 and 6). -/
def Obligations.MaskedInterruptWaits : Prop :=
  (∀ s t : State, step s = .next t → s.inisr = false → t.inisr = true → s.isrReady = true)
  ∧ (∀ (s t : State) (l : Line) (rest : List Line), s.feed = l :: rest → s.kisr = .inactive → s.inisr = false →
      s.gie = false → step s = .next t →
      l = .fgRead ∨ (∃ src, l = .fgWrite src) ∨ (∃ b, l = .fgPutc b) ∨ l = .fgRun ∨ l = .proc
        ∨ (∃ bs, l = .word .busev8 bs)
        ∨ (∃ bs i, l = .word .call8 bs ∧ decode .call8 bs = .ok i ∧ isIsrRow i = false) ∨ t = { s with feed := rest })
  ∧ ∀ s t : State, s.fault = none → s.feed = [] → step s = .next t →
    (s.inisr = true →
      t.kfg = s.kfg ∧ t.rd = s.rd ∧ t.gie = s.gie ∧ t.txReady = s.txReady ∧ t.inTog = s.inTog ∧ t.rstf = s.rstf
        ∧ t.ueir = s.ueir ∧ t.stallf = s.stallf ∧ t.epStall = s.epStall ∧ t.addr = s.addr)
    ∧ (s.gie = false → s.inisr = false →
        t.inisr = false ∧ t.kisr = s.kisr ∧ t.ustatq = s.ustatq ∧ t.rstf = s.rstf ∧ t.ueir = s.ueir
          ∧ t.stallf = s.stallf)

/-- 60_exceptions R158, R162, 42_dispatcher R111: once FAULT is set no agent takes a step, whatever the program says (the
model answers the fault, log entry 8); the lines of a program that are refused; and a row that would start an invocation is
refused where the entry condition does not hold, by itself and as a line (log entry 6), as is an IRQ16 line whose word the
registers do not show. -/
def Obligations.FaultedAndRefusedSteps : Prop :=
  (∀ (s : State) (c : Fault), s.fault = some c → step s = .fault c)
  ∧ (∀ (s : State) (rest : List Line), s.fault = none →
    (∀ f bs e, s.feed = .word f bs :: rest → decode f bs = .error e → step s = .refused (.illFormed e))
    ∧ (s.feed = .isr :: rest → s.isrReady = false → step s = .refused .isrNotReady)
    ∧ (s.feed = .isrRun :: rest → s.inisr = false → step s = .refused .isrNotActive)
    ∧ (s.feed = .fgRun :: rest → s.inisr = false → s.isrReady = false → s.kfg = .idle → step s = .refused .fgIdle)
    ∧ (s.inisr = true → s.feed = .fgRun :: rest → step s = .refused .isrActive)
    ∧ (s.isrReady = true → s.feed = .fgRun :: rest → step s = .refused .isrPending)
    ∧ ∀ (b : Byte) (src : List Byte), ∀ l ∈ [Line.fgRead, .fgWrite src, .fgPutc b, .word .call8 (encode .readCharacter),
          .word .call8 (encode (.writeString src)), .word .call8 (encode (.writeCharacter b))],
        s.feed = l :: rest →
        (s.inisr = true → step s = .refused .isrActive)
        ∧ (s.isrReady = true → step s = .refused .isrPending)
        ∧ (s.inisr = false → s.isrReady = false → s.kfg ≠ .idle → step s = .refused .fgBusy))
  ∧ ∀ (i : Instr) (s : State) (bs : List Byte) (rest : List Line),
      isIsrRow i = true ∨ i.format = .classreq8 ∨ i.format = .irq16 → s.fault = none →
      s.feed = .word i.format bs :: rest → decode i.format bs = .ok i →
      (s.inisr = true → step s = .refused .isrActive)
      ∧ (s.inisr = false → s.gie = false → step s = .refused .interruptsMasked)
      ∧ (s.inisr = false → s.gie = true → s.irq = false → step s = .refused .isrNotReady)
      ∧ (i.format = .irq16 → s.isrReady = true → irqShown i s = false → step s = .refused .wordNotShown)
      ∧ (i.format ≠ .classreq8 → s.kisr = .inactive →
          (s.inisr = true → exec i s = .refused .isrActive)
          ∧ (s.inisr = false → s.gie = false → exec i s = .refused .interruptsMasked)
          ∧ (s.inisr = false → s.gie = true → s.irq = false → exec i s = .refused .isrNotReady))

/-! ## Encodings -/

/-- 30_encoding R65 to R88: decoding the encoding of any well-formed operation gives it back, with every operand at every
value its encoding admits. The layout of the operands in a record is the model's choice, log entry 3. -/
def Obligations.DecodeInvertsEncode : Prop :=
  ∀ i : Instr, i.wellFormed = true → decode i.format (encode i) = .ok i

/-- 30_encoding R65, R66, R84, R86: every packet of eight bytes selects a well-formed SETUP64 row from which the eight
bytes can be read back: no bit of a packet is dropped. -/
def Obligations.SetupDecodingLosesNothing : Prop :=
  ∀ p0 p1 p2 p3 p4 p5 p6 p7 : Byte,
    ∃ i, decode .setup64 [p0, p1, p2, p3, p4, p5, p6, p7] = .ok i ∧ i.wellFormed = true ∧ i.format = .setup64
      ∧ encode i = [p0, p1, p2, p3, p4, p5, p6, p7]

/-- 30_encoding R88: the decoder agrees with the opcode table: the row of what a record decodes to matches the record's
word, and every other row that matches has a higher priority number. A code that no row of CALL8 or BUSEV8 matches names
nothing, and only such a code (R81, R82, R85). -/
def Obligations.DecoderAgreesWithTheOpcodeTable : Prop :=
  (∀ (f : Format) (bs : List Byte) (i : Instr), decode f bs = .ok i →
    i.format = f
    ∧ ∃ r, i.row = some r ∧ r ∈ tableOf f ∧ r.matchesWord (wordOf f bs) = true
        ∧ ∀ r' ∈ tableOf f, r'.matchesWord (wordOf f bs) = true → r' = r ∨ r.priority < r'.priority)
  ∧ ∀ (f : Format) (c : Byte) (rest : List Byte), f = .call8 ∨ f = .busev8 →
    (decode f (c :: rest) = .error (.undefinedCode f c)
      ↔ ∀ r ∈ tableOf f, r.matchesWord (c.setWidth 64) = false)

/-- 30_encoding R70, R71: the four bytes of a descriptor and the two views of STAT, bit by bit; STAT shows the CPU view
after each of the three arming operations and the SIE view after a completion. That a descriptor the stall release handed
back shows the CPU view is the model's inference, log entry 13. -/
def Obligations.DescriptorBytesAndTheirViews : Prop :=
  ∀ (b : BD) (check : Bool), b.cnt < 1024 →
    cpuView (b.cpuStat check)
      = { uown := b.own == .sie, dts := b.dts, dtsen := check, bstall := b.stall, bc98 := BitVec.ofNat 2 (b.cnt / 256) }
    ∧ (b.cpuStat check).getLsbD 5 = false ∧ (b.cpuStat check).getLsbD 4 = false
    ∧ sieView b.sieStat = { uown := b.own == .sie, pid := b.pid, bc98 := BitVec.ofNat 2 (b.cnt / 256) }
    ∧ b.sieStat.getLsbD 6 = false
    ∧ b.cntByte = BitVec.ofNat 8 b.cnt
    ∧ b.adrl.toNat = b.adr.toNat % 256 ∧ b.adrh.toNat = b.adr.toNat / 256
    ∧ (∀ t, (outArmed b t).stat check = (outArmed b t).cpuStat check)
    ∧ (∀ n t, (inArmed b n t).stat check = (inArmed b n t).cpuStat check)
    ∧ (inStalled b).stat check = (inStalled b).cpuStat check
    ∧ { b with stall := false, own := .cpu, statBy := .cpu : BD }.stat check
        = { b with stall := false, own := .cpu, statBy := .cpu : BD }.cpuStat check
    ∧ (∀ pid, { b with pid := pid, own := .cpu, statBy := .sie : BD }.stat check
        = { b with pid := pid, own := .cpu, statBy := .sie : BD }.sieStat)

/-- 30_encoding R74, R75, R77: the register bytes, bit by bit. -/
def Obligations.RegisterBytes : Prop :=
  ∀ s : State,
    (∀ n < 8, s.uir.getLsbD n
      = (n == 0 && s.rstf || n == 1 && (s.ueir != 0) || n == 3 && (s.ustatq != []) || n == 5 && s.stallf))
    ∧ (∀ c q, s.ustatq = c :: q →
        s.ustat.extractLsb' 3 4 = c.ep ∧ s.ustat.getLsbD 2 = (c.dir == .inn) ∧ s.ustat.getLsbD 1 = false
          ∧ s.ustat.getLsbD 0 = false ∧ s.ustat.getLsbD 7 = false)
    ∧ (s.ustatq = [] → s.ustat = 0)
    ∧ s.ucon.getLsbD 4 = s.pktdis
    ∧ s.uaddr.toNat = s.addr.toNat
    ∧ s.uep0 = (if s.epStall.e0 then 0b00010111 else 0b00010110)
    ∧ s.uep1 = (if s.epStall.e1 then 0b00011011 else 0b00011010)
    ∧ s.uep2 = (if s.epStall.e2 then 0b00011111 else 0b00011110)
    ∧ uie = 0b00101011 ∧ ueie = 0b10011111

/-- 30_encoding R65, R83, R84: a few words decode to the operations they stand for. That an IRQ16 record is UIR then USTAT,
and that a BUS.IN record is its code, the address and the endpoint, one byte each, is the model's choice of layout, log
entry 3. -/
def Obligations.SampleWordsDecode : Prop :=
  decode .setup64 [0x80, 0x06, 0x00, 0x01, 0x00, 0x00, 0x40, 0x00] = .ok (.getDescriptorDevice ⟨1, 0⟩ 0 0 64)
  ∧ decode .setup64 [0x00, 0x05, 0x05, 0x00, 0x00, 0x00, 0x00, 0x00] = .ok (.setAddress ⟨0, 0⟩ 5 0 0)
  ∧ decode .setup64 [0x21, 0x20, 0x00, 0x00, 0x00, 0x00, 0x07, 0x00] = .ok (.classData ⟨0, 1⟩ 0x20 0 0 7)
  ∧ decode .irq16 [0b00001000, 0b00010100] = .ok (.dispatchTrnIn 2)
  ∧ decode .outdone8 [0x0D] = .ok .ep0Setup
  ∧ decode .busev8 [0x09, 0x05, 0x02] = .ok (.busIn 5 2)

/-! ## Who writes what -/

/-- 10_state R28 to R41, R44, 41_control_transfer R110: which rows write the registers named, over every row and every state
outside the ISR; ADDR, PENDADDR and TXREADY have AddressAndTxReadyWriters. -/
def Obligations.RegisterWriters : Prop :=
  ∀ (i : Instr) (s t : State), i ≠ .init → s.kisr = .inactive → exec i s = .next t →
    (t.ctrl ≠ s.ctrl → servesEp0 i = true)
    ∧ (t.lineCoding ≠ s.lineCoding → servesEp0 i = true ∨ ∃ payload, i = .clsSetLineCoding payload)
    ∧ (t.diag ≠ s.diag ∨ t.outTog ≠ s.outTog ∨ t.rxbuf ≠ s.rxbuf ∨ t.wr ≠ s.wr ∨ t.occ ≠ s.occ → receives i = true)
    ∧ (t.rstf ≠ s.rstf → (i = .busReset ∧ t.rstf = true) ∨ (i.format = .irq16 ∧ t.rstf = false))
    ∧ (t.stallf ≠ s.stallf ∨ t.epStall ≠ s.epStall →
        (i.format = .busev8 ∧ t.stallf = true) ∨ (i.format = .irq16 ∧ t.stallf = false))
    ∧ (t.ustatq ≠ s.ustatq →
        (i.format = .busev8 ∧ ∃ c, t.ustatq = s.ustatq ++ [c]) ∨ (i.format = .irq16 ∧ t.ustatq = s.ustatq.tail))
    ∧ (t.ueir ≠ s.ueir → (∃ k, i = .busError k) ∨ (i.format = .irq16 ∧ t.ueir = 0))
    ∧ (t.pktdis ≠ s.pktdis →
        ((∃ a p, i = .busSetup a 0 p) ∧ t.pktdis = true)
          ∨ (t.pktdis = false ∧ (i.format = .outdone8 ∨ i.format = .irq16 ∨ i.format = .pid4)))
    ∧ t.rd = s.rd ∧ t.gie = s.gie ∧ t.inTog = s.inTog ∧ t.returned = s.returned ∧ t.cfg = s.cfg

/-- 10_state R30, R38, R40, 41_control_transfer R102, 42_dispatcher R117, 44_byte_stream R140, R142: ADDR changes only at an
IN completion, to the pending address, which it consumes, or to 0 at a bus reset of a device whose hardware does that, or at
INIT; PENDADDR only where SET_ADDRESS latches `wValue[6:0]`, at that IN completion, or at INIT; TXREADY is set by the
IN-completion callback alone, called when no address was pending, and by INIT, and cleared by FG's line 2 of `write_string`
alone. The ISR's steps from a hold point write none of the three, and its step from the entry writes them as its row does. -/
def Obligations.AddressAndTxReadyWriters : Prop :=
  (∀ (i : Instr) (s t : State), exec i s = .next t → t.addr ≠ s.addr →
    (servesIn i = true ∧ s.pendAddr = some t.addr ∧ t.pendAddr = none)
    ∨ (i = .busReset ∧ s.cfg.resetClearsAddr = true ∧ t.addr = 0)
    ∨ (i = .init ∧ t.addr = 0))
  ∧ (∀ (i : Instr) (s t : State), exec i s = .next t → t.pendAddr ≠ s.pendAddr →
    (∃ h wValue wIndex wLength, t.pendAddr = some (BitVec.ofNat 7 (wValue.toNat % 128))
      ∧ (i = .setAddress h wValue wIndex wLength
          ∨ (decodesPacket i = true
              ∧ decodeSetup (readSetup s.ram s.bdt.ep0Out.adr) = .setAddress h wValue wIndex wLength)))
    ∨ (servesIn i = true ∧ s.pendAddr = some t.addr ∧ t.pendAddr = none)
    ∨ (i = .init ∧ t.pendAddr = none))
  ∧ (∀ (i : Instr) (s t : State), exec i s = .next t → t.txReady ≠ s.txReady →
    t.txReady = true
    ∧ (i = .txDoneCallback ∨ i = .init
        ∨ ((i = .dispatchTrnIn 2 ∨ i = .dispatchError false true .inn 2) ∧ s.pendAddr = none)))
  ∧ (∀ s t : State, fgOutcome s = .next t →
      t.addr = s.addr ∧ t.pendAddr = s.pendAddr
      ∧ (t.txReady ≠ s.txReady → t.txReady = false ∧ ∃ src off, s.kfg = .write2 src off))
  ∧ (∀ s t : State, isrResume s = .next t ∨ isrAtom s = t →
      t.addr = s.addr ∧ t.pendAddr = s.pendAddr ∧ t.txReady = s.txReady)
  ∧ ∀ s t : State, s.isrReady = true → isrEnterAtom s = .next t →
      ∃ u, isrEnter s = .next u ∧ t.addr = u.addr ∧ t.pendAddr = u.pendAddr ∧ t.txReady = u.txReady

/-! ## Invariants -/

/-- 20_memory R47, 10_state R24, R26, R34, R46, 30_encoding R76, 60_exceptions R169 to R172, 70_reset R190: every step keeps
USB RAM canonical, each byte count at most 64, each buffer address as the parameters say, USTATQ within its depth, the
unused bits of UEIR 0, INISR in agreement with KISR, GIE = 0 exactly in the critical section of `read_character`, and the
parameters themselves. -/
def Obligations.StepKeepsStoredData : Prop :=
  ∀ s t : State, step s = .next t →
    (MemOk s → MemOk t) ∧ (BdtOk s → BdtOk t) ∧ (QueueOk s → QueueOk t) ∧ (UeirOk s → UeirOk t)
    ∧ (ContextOk s → ContextOk t) ∧ (GieOk s → GieOk t) ∧ t.cfg = s.cfg

/-- 10_state R39, 44_byte_stream R132, R135, 20_memory R62: every step keeps the ring: OCC at most the capacity, the
cursors in range with `WR = (RD + OCC) mod P_RXCAP`, and no dequeue from an empty ring. -/
def Obligations.StepKeepsTheRing : Prop :=
  ∀ s t : State, RingOk s → step s = .next t → RingOk t

/-- Every invariant of this file holds at reset. -/
def Obligations.ResetMeetsTheInvariants : Prop :=
  MemOk State.reset ∧ BdtOk State.reset ∧ QueueOk State.reset ∧ UeirOk State.reset ∧ RingOk State.reset
    ∧ ContextOk State.reset ∧ GieOk State.reset ∧ NoFaultOk State.reset ∧ FlowOk State.reset ∧ OutOk State.reset
    ∧ paramsWf State.reset.cfg = true

/-- 60_exceptions R164: a program of bus events, public calls and agent steps never faults. -/
def Obligations.PublicProgramsNeverFault : Prop :=
  ∀ s : State, NoFaultOk s →
    (∀ c, step s ≠ .fault c) ∧ ∀ t, step s = .next t → NoFaultOk t

/-- 44_byte_stream R142, 10_state R40: at most one data-IN transmission is in flight, so FG's `arm_in` never holds. -/
def Obligations.OneTransmissionInFlight : Prop :=
  (∀ s t : State, FlowOk s → step s = .next t → FlowOk t)
  ∧ ∀ (s : State) (src : List Byte) (off n : Nat), FlowOk s → s.kfg = .write3 src off n →
      s.bdt.ep2In.own = .cpu ∧ pending 2 .inn s = 0 ∧ s.txReady = false

/-- 70_reset R185: no `arm_out` of a rule ever holds: whenever an invocation comes to one, the CPU owns its descriptor, so
an invocation holds only in an IN arm of endpoint 0. -/
def Obligations.ArmOutNeverHolds : Prop :=
  (∀ s t : State, OutOk s → step s = .next t → OutOk t)
  ∧ ∀ (s : State) (a : ArmOp) (k : List IsrOp), OutOk s → s.kisr = .active (.arm a :: k) →
      (∃ t, a = .armOut 0 t ∧ s.bdt.ep0Out.own = .cpu) ∨ (∃ t, a = .armOut 2 t ∧ s.bdt.ep2Out.own = .cpu)
        ∨ ArmOp.ep0In a = true

/-- 70_reset R187, 41_control_transfer R107, 45_sie_bus_agent R148, R153: the invocation of a dropped packet changes CTRL,
PKTDIS and USTATQ alone and leaves endpoint 0 deaf: it stays so under every program of bus events, public calls and agent
steps, ignores every SETUP, and NAKs every IN token once nothing is armed on its IN direction, which then stays so too (a
response armed before may still be collected). -/
def Obligations.DroppedRequestLeavesEp0Deaf : Prop :=
  (∀ (s : State) (i : Instr) (q : List Completion),
    CanEnter s → PublicFeed s → (∀ a, s.kfg ≠ .arm a) → s.bdt.ep0Out.own = .cpu → s.bdt.ep0Out.pid = Pid.setup →
    s.ustatq = ⟨0, .out⟩ :: q → ⟨0, .out⟩ ∉ q → decode .setup64 (memRead s.ram s.bdt.ep0Out.adr 8) = .ok i →
    isDropped i s = true →
    ∃ t, exec (.dispatchTrnOut 0) s = .next t
      ∧ t = { s with ctrl := .awaitingRequest, pktdis := false, ustatq := q }
      ∧ Deaf t ∧ (s.bdt.ep0In.own = .cpu → Silent t))
  ∧ (∀ s t : State, step s = .next t → (Deaf s → Deaf t) ∧ (Silent s → Silent t))
  ∧ (∀ (s : State) (a : BitVec 7) (p : SetupPkt), Deaf s → exec (.busSetup a 0 p) s = .next (s.answer .none))
  ∧ ∀ s : State, Silent s → exec (.busIn s.addr 0) s = .next (s.answer .nak)

/-- 70_reset R186: an IN arm of endpoint 0 that holds while packet processing is disabled never ends, under any program
of bus events, public calls and agent steps; and every token is turned away. -/
def Obligations.HoldUnderPktdisNeverEnds : Prop :=
  (∀ s t : State, Deadlocked s → step s = .next t → Deadlocked t ∧ t.kfg = s.kfg ∧ t.kisr = s.kisr)
  ∧ ∀ (s t : State) (a : BitVec 7) (ep : BitVec 4), Deadlocked s → exec (.busIn a ep) s = .next t →
      t = s.answer .nak ∨ t = s.answer .none
end

