-- ==== Sys2Proof/Laws/State.lean ====
section
/-! SUPPORT. One lemma per field of State for each named update of a state, so that no proof unfolds an update. -/

namespace Sys2Proof.Machine

/-! ## `setBd` -/

@[simp] theorem State.setBd_cfg (s : State) (sl : Slot) (b : BD) : (s.setBd sl b).cfg = s.cfg := by cases sl <;> rfl
@[simp] theorem State.setBd_ram (s : State) (sl : Slot) (b : BD) : (s.setBd sl b).ram = s.ram := by cases sl <;> rfl
@[simp] theorem State.setBd_outTog (s : State) (sl : Slot) (b : BD) : (s.setBd sl b).outTog = s.outTog := by cases sl <;> rfl
@[simp] theorem State.setBd_inTog (s : State) (sl : Slot) (b : BD) : (s.setBd sl b).inTog = s.inTog := by cases sl <;> rfl
@[simp] theorem State.setBd_epStall (s : State) (sl : Slot) (b : BD) : (s.setBd sl b).epStall = s.epStall := by cases sl <;> rfl
@[simp] theorem State.setBd_addr (s : State) (sl : Slot) (b : BD) : (s.setBd sl b).addr = s.addr := by cases sl <;> rfl
@[simp] theorem State.setBd_rstf (s : State) (sl : Slot) (b : BD) : (s.setBd sl b).rstf = s.rstf := by cases sl <;> rfl
@[simp] theorem State.setBd_stallf (s : State) (sl : Slot) (b : BD) : (s.setBd sl b).stallf = s.stallf := by cases sl <;> rfl
@[simp] theorem State.setBd_ueir (s : State) (sl : Slot) (b : BD) : (s.setBd sl b).ueir = s.ueir := by cases sl <;> rfl
@[simp] theorem State.setBd_ustatq (s : State) (sl : Slot) (b : BD) : (s.setBd sl b).ustatq = s.ustatq := by cases sl <;> rfl
@[simp] theorem State.setBd_pktdis (s : State) (sl : Slot) (b : BD) : (s.setBd sl b).pktdis = s.pktdis := by cases sl <;> rfl
@[simp] theorem State.setBd_gie (s : State) (sl : Slot) (b : BD) : (s.setBd sl b).gie = s.gie := by cases sl <;> rfl
@[simp] theorem State.setBd_inisr (s : State) (sl : Slot) (b : BD) : (s.setBd sl b).inisr = s.inisr := by cases sl <;> rfl
@[simp] theorem State.setBd_ctrl (s : State) (sl : Slot) (b : BD) : (s.setBd sl b).ctrl = s.ctrl := by cases sl <;> rfl
@[simp] theorem State.setBd_pendAddr (s : State) (sl : Slot) (b : BD) : (s.setBd sl b).pendAddr = s.pendAddr := by cases sl <;> rfl
@[simp] theorem State.setBd_rxbuf (s : State) (sl : Slot) (b : BD) : (s.setBd sl b).rxbuf = s.rxbuf := by cases sl <;> rfl
@[simp] theorem State.setBd_rd (s : State) (sl : Slot) (b : BD) : (s.setBd sl b).rd = s.rd := by cases sl <;> rfl
@[simp] theorem State.setBd_wr (s : State) (sl : Slot) (b : BD) : (s.setBd sl b).wr = s.wr := by cases sl <;> rfl
@[simp] theorem State.setBd_occ (s : State) (sl : Slot) (b : BD) : (s.setBd sl b).occ = s.occ := by cases sl <;> rfl
@[simp] theorem State.setBd_txReady (s : State) (sl : Slot) (b : BD) : (s.setBd sl b).txReady = s.txReady := by cases sl <;> rfl
@[simp] theorem State.setBd_lineCoding (s : State) (sl : Slot) (b : BD) : (s.setBd sl b).lineCoding = s.lineCoding := by cases sl <;> rfl
@[simp] theorem State.setBd_diag (s : State) (sl : Slot) (b : BD) : (s.setBd sl b).diag = s.diag := by cases sl <;> rfl
@[simp] theorem State.setBd_fault (s : State) (sl : Slot) (b : BD) : (s.setBd sl b).fault = s.fault := by cases sl <;> rfl
@[simp] theorem State.setBd_kfg (s : State) (sl : Slot) (b : BD) : (s.setBd sl b).kfg = s.kfg := by cases sl <;> rfl
@[simp] theorem State.setBd_kisr (s : State) (sl : Slot) (b : BD) : (s.setBd sl b).kisr = s.kisr := by cases sl <;> rfl
@[simp] theorem State.setBd_feed (s : State) (sl : Slot) (b : BD) : (s.setBd sl b).feed = s.feed := by cases sl <;> rfl
@[simp] theorem State.setBd_answers (s : State) (sl : Slot) (b : BD) : (s.setBd sl b).answers = s.answers := by cases sl <;> rfl
@[simp] theorem State.setBd_returned (s : State) (sl : Slot) (b : BD) : (s.setBd sl b).returned = s.returned := by cases sl <;> rfl
@[simp] theorem State.setBd_free (s : State) (sl : Slot) (b : BD) : (s.setBd sl b).free = s.free := by cases sl <;> rfl

/-! ## `setFree` -/

@[simp] theorem State.setFree_cfg (s : State) (n : Nat) : (s.setFree n).cfg = s.cfg := rfl
@[simp] theorem State.setFree_ram (s : State) (n : Nat) : (s.setFree n).ram = s.ram := rfl
@[simp] theorem State.setFree_bdt (s : State) (n : Nat) : (s.setFree n).bdt = s.bdt := rfl
@[simp] theorem State.setFree_outTog (s : State) (n : Nat) : (s.setFree n).outTog = s.outTog := rfl
@[simp] theorem State.setFree_inTog (s : State) (n : Nat) : (s.setFree n).inTog = s.inTog := rfl
@[simp] theorem State.setFree_epStall (s : State) (n : Nat) : (s.setFree n).epStall = s.epStall := rfl
@[simp] theorem State.setFree_addr (s : State) (n : Nat) : (s.setFree n).addr = s.addr := rfl
@[simp] theorem State.setFree_rstf (s : State) (n : Nat) : (s.setFree n).rstf = s.rstf := rfl
@[simp] theorem State.setFree_stallf (s : State) (n : Nat) : (s.setFree n).stallf = s.stallf := rfl
@[simp] theorem State.setFree_ueir (s : State) (n : Nat) : (s.setFree n).ueir = s.ueir := rfl
@[simp] theorem State.setFree_ustatq (s : State) (n : Nat) : (s.setFree n).ustatq = s.ustatq := rfl
@[simp] theorem State.setFree_pktdis (s : State) (n : Nat) : (s.setFree n).pktdis = s.pktdis := rfl
@[simp] theorem State.setFree_gie (s : State) (n : Nat) : (s.setFree n).gie = s.gie := rfl
@[simp] theorem State.setFree_inisr (s : State) (n : Nat) : (s.setFree n).inisr = s.inisr := rfl
@[simp] theorem State.setFree_ctrl (s : State) (n : Nat) : (s.setFree n).ctrl = s.ctrl := rfl
@[simp] theorem State.setFree_pendAddr (s : State) (n : Nat) : (s.setFree n).pendAddr = s.pendAddr := rfl
@[simp] theorem State.setFree_rxbuf (s : State) (n : Nat) : (s.setFree n).rxbuf = s.rxbuf := rfl
@[simp] theorem State.setFree_rd (s : State) (n : Nat) : (s.setFree n).rd = s.rd := rfl
@[simp] theorem State.setFree_wr (s : State) (n : Nat) : (s.setFree n).wr = s.wr := rfl
@[simp] theorem State.setFree_occ (s : State) (n : Nat) : (s.setFree n).occ = s.occ := rfl
@[simp] theorem State.setFree_txReady (s : State) (n : Nat) : (s.setFree n).txReady = s.txReady := rfl
@[simp] theorem State.setFree_lineCoding (s : State) (n : Nat) : (s.setFree n).lineCoding = s.lineCoding := rfl
@[simp] theorem State.setFree_diag (s : State) (n : Nat) : (s.setFree n).diag = s.diag := rfl
@[simp] theorem State.setFree_fault (s : State) (n : Nat) : (s.setFree n).fault = s.fault := rfl
@[simp] theorem State.setFree_kfg (s : State) (n : Nat) : (s.setFree n).kfg = s.kfg := rfl
@[simp] theorem State.setFree_kisr (s : State) (n : Nat) : (s.setFree n).kisr = s.kisr := rfl
@[simp] theorem State.setFree_feed (s : State) (n : Nat) : (s.setFree n).feed = s.feed := rfl
@[simp] theorem State.setFree_answers (s : State) (n : Nat) : (s.setFree n).answers = s.answers := rfl
@[simp] theorem State.setFree_returned (s : State) (n : Nat) : (s.setFree n).returned = s.returned := rfl
@[simp] theorem State.setFree_free (s : State) (n : Nat) : (s.setFree n).free = n := rfl

/-! ## `setRam` -/

@[simp] theorem State.setRam_cfg (s : State) (m : Memory) : (s.setRam m).cfg = s.cfg := rfl
@[simp] theorem State.setRam_ram (s : State) (m : Memory) : (s.setRam m).ram = m := rfl
@[simp] theorem State.setRam_bdt (s : State) (m : Memory) : (s.setRam m).bdt = s.bdt := rfl
@[simp] theorem State.setRam_outTog (s : State) (m : Memory) : (s.setRam m).outTog = s.outTog := rfl
@[simp] theorem State.setRam_inTog (s : State) (m : Memory) : (s.setRam m).inTog = s.inTog := rfl
@[simp] theorem State.setRam_epStall (s : State) (m : Memory) : (s.setRam m).epStall = s.epStall := rfl
@[simp] theorem State.setRam_addr (s : State) (m : Memory) : (s.setRam m).addr = s.addr := rfl
@[simp] theorem State.setRam_rstf (s : State) (m : Memory) : (s.setRam m).rstf = s.rstf := rfl
@[simp] theorem State.setRam_stallf (s : State) (m : Memory) : (s.setRam m).stallf = s.stallf := rfl
@[simp] theorem State.setRam_ueir (s : State) (m : Memory) : (s.setRam m).ueir = s.ueir := rfl
@[simp] theorem State.setRam_ustatq (s : State) (m : Memory) : (s.setRam m).ustatq = s.ustatq := rfl
@[simp] theorem State.setRam_pktdis (s : State) (m : Memory) : (s.setRam m).pktdis = s.pktdis := rfl
@[simp] theorem State.setRam_gie (s : State) (m : Memory) : (s.setRam m).gie = s.gie := rfl
@[simp] theorem State.setRam_inisr (s : State) (m : Memory) : (s.setRam m).inisr = s.inisr := rfl
@[simp] theorem State.setRam_ctrl (s : State) (m : Memory) : (s.setRam m).ctrl = s.ctrl := rfl
@[simp] theorem State.setRam_pendAddr (s : State) (m : Memory) : (s.setRam m).pendAddr = s.pendAddr := rfl
@[simp] theorem State.setRam_rxbuf (s : State) (m : Memory) : (s.setRam m).rxbuf = s.rxbuf := rfl
@[simp] theorem State.setRam_rd (s : State) (m : Memory) : (s.setRam m).rd = s.rd := rfl
@[simp] theorem State.setRam_wr (s : State) (m : Memory) : (s.setRam m).wr = s.wr := rfl
@[simp] theorem State.setRam_occ (s : State) (m : Memory) : (s.setRam m).occ = s.occ := rfl
@[simp] theorem State.setRam_txReady (s : State) (m : Memory) : (s.setRam m).txReady = s.txReady := rfl
@[simp] theorem State.setRam_lineCoding (s : State) (m : Memory) : (s.setRam m).lineCoding = s.lineCoding := rfl
@[simp] theorem State.setRam_diag (s : State) (m : Memory) : (s.setRam m).diag = s.diag := rfl
@[simp] theorem State.setRam_fault (s : State) (m : Memory) : (s.setRam m).fault = s.fault := rfl
@[simp] theorem State.setRam_kfg (s : State) (m : Memory) : (s.setRam m).kfg = s.kfg := rfl
@[simp] theorem State.setRam_kisr (s : State) (m : Memory) : (s.setRam m).kisr = s.kisr := rfl
@[simp] theorem State.setRam_feed (s : State) (m : Memory) : (s.setRam m).feed = s.feed := rfl
@[simp] theorem State.setRam_answers (s : State) (m : Memory) : (s.setRam m).answers = s.answers := rfl
@[simp] theorem State.setRam_returned (s : State) (m : Memory) : (s.setRam m).returned = s.returned := rfl
@[simp] theorem State.setRam_free (s : State) (m : Memory) : (s.setRam m).free = s.free := rfl

/-! ## `raise` -/

@[simp] theorem State.raise_cfg (s : State) (c : Fault) : (s.raise c).cfg = s.cfg := rfl
@[simp] theorem State.raise_ram (s : State) (c : Fault) : (s.raise c).ram = s.ram := rfl
@[simp] theorem State.raise_bdt (s : State) (c : Fault) : (s.raise c).bdt = s.bdt := rfl
@[simp] theorem State.raise_outTog (s : State) (c : Fault) : (s.raise c).outTog = s.outTog := rfl
@[simp] theorem State.raise_inTog (s : State) (c : Fault) : (s.raise c).inTog = s.inTog := rfl
@[simp] theorem State.raise_epStall (s : State) (c : Fault) : (s.raise c).epStall = s.epStall := rfl
@[simp] theorem State.raise_addr (s : State) (c : Fault) : (s.raise c).addr = s.addr := rfl
@[simp] theorem State.raise_rstf (s : State) (c : Fault) : (s.raise c).rstf = s.rstf := rfl
@[simp] theorem State.raise_stallf (s : State) (c : Fault) : (s.raise c).stallf = s.stallf := rfl
@[simp] theorem State.raise_ueir (s : State) (c : Fault) : (s.raise c).ueir = s.ueir := rfl
@[simp] theorem State.raise_ustatq (s : State) (c : Fault) : (s.raise c).ustatq = s.ustatq := rfl
@[simp] theorem State.raise_pktdis (s : State) (c : Fault) : (s.raise c).pktdis = s.pktdis := rfl
@[simp] theorem State.raise_gie (s : State) (c : Fault) : (s.raise c).gie = s.gie := rfl
@[simp] theorem State.raise_inisr (s : State) (c : Fault) : (s.raise c).inisr = s.inisr := rfl
@[simp] theorem State.raise_ctrl (s : State) (c : Fault) : (s.raise c).ctrl = s.ctrl := rfl
@[simp] theorem State.raise_pendAddr (s : State) (c : Fault) : (s.raise c).pendAddr = s.pendAddr := rfl
@[simp] theorem State.raise_rxbuf (s : State) (c : Fault) : (s.raise c).rxbuf = s.rxbuf := rfl
@[simp] theorem State.raise_rd (s : State) (c : Fault) : (s.raise c).rd = s.rd := rfl
@[simp] theorem State.raise_wr (s : State) (c : Fault) : (s.raise c).wr = s.wr := rfl
@[simp] theorem State.raise_occ (s : State) (c : Fault) : (s.raise c).occ = s.occ := rfl
@[simp] theorem State.raise_txReady (s : State) (c : Fault) : (s.raise c).txReady = s.txReady := rfl
@[simp] theorem State.raise_lineCoding (s : State) (c : Fault) : (s.raise c).lineCoding = s.lineCoding := rfl
@[simp] theorem State.raise_diag (s : State) (c : Fault) : (s.raise c).diag = s.diag := rfl
@[simp] theorem State.raise_kfg (s : State) (c : Fault) : (s.raise c).kfg = s.kfg := rfl
@[simp] theorem State.raise_kisr (s : State) (c : Fault) : (s.raise c).kisr = s.kisr := rfl
@[simp] theorem State.raise_feed (s : State) (c : Fault) : (s.raise c).feed = s.feed := rfl
@[simp] theorem State.raise_answers (s : State) (c : Fault) : (s.raise c).answers = s.answers := rfl
@[simp] theorem State.raise_returned (s : State) (c : Fault) : (s.raise c).returned = s.returned := rfl
@[simp] theorem State.raise_free (s : State) (c : Fault) : (s.raise c).free = s.free := rfl

/-! ## `enterIsr` -/

@[simp] theorem State.enterIsr_cfg (s : State) : (s.enterIsr).cfg = s.cfg := rfl
@[simp] theorem State.enterIsr_ram (s : State) : (s.enterIsr).ram = s.ram := rfl
@[simp] theorem State.enterIsr_bdt (s : State) : (s.enterIsr).bdt = s.bdt := rfl
@[simp] theorem State.enterIsr_outTog (s : State) : (s.enterIsr).outTog = s.outTog := rfl
@[simp] theorem State.enterIsr_inTog (s : State) : (s.enterIsr).inTog = s.inTog := rfl
@[simp] theorem State.enterIsr_epStall (s : State) : (s.enterIsr).epStall = s.epStall := rfl
@[simp] theorem State.enterIsr_addr (s : State) : (s.enterIsr).addr = s.addr := rfl
@[simp] theorem State.enterIsr_rstf (s : State) : (s.enterIsr).rstf = s.rstf := rfl
@[simp] theorem State.enterIsr_stallf (s : State) : (s.enterIsr).stallf = s.stallf := rfl
@[simp] theorem State.enterIsr_ueir (s : State) : (s.enterIsr).ueir = s.ueir := rfl
@[simp] theorem State.enterIsr_ustatq (s : State) : (s.enterIsr).ustatq = s.ustatq := rfl
@[simp] theorem State.enterIsr_pktdis (s : State) : (s.enterIsr).pktdis = s.pktdis := rfl
@[simp] theorem State.enterIsr_gie (s : State) : (s.enterIsr).gie = s.gie := rfl
@[simp] theorem State.enterIsr_inisr (s : State) : (s.enterIsr).inisr = true := rfl
@[simp] theorem State.enterIsr_ctrl (s : State) : (s.enterIsr).ctrl = s.ctrl := rfl
@[simp] theorem State.enterIsr_pendAddr (s : State) : (s.enterIsr).pendAddr = s.pendAddr := rfl
@[simp] theorem State.enterIsr_rxbuf (s : State) : (s.enterIsr).rxbuf = s.rxbuf := rfl
@[simp] theorem State.enterIsr_rd (s : State) : (s.enterIsr).rd = s.rd := rfl
@[simp] theorem State.enterIsr_wr (s : State) : (s.enterIsr).wr = s.wr := rfl
@[simp] theorem State.enterIsr_occ (s : State) : (s.enterIsr).occ = s.occ := rfl
@[simp] theorem State.enterIsr_txReady (s : State) : (s.enterIsr).txReady = s.txReady := rfl
@[simp] theorem State.enterIsr_lineCoding (s : State) : (s.enterIsr).lineCoding = s.lineCoding := rfl
@[simp] theorem State.enterIsr_diag (s : State) : (s.enterIsr).diag = s.diag := rfl
@[simp] theorem State.enterIsr_fault (s : State) : (s.enterIsr).fault = s.fault := rfl
@[simp] theorem State.enterIsr_kfg (s : State) : (s.enterIsr).kfg = s.kfg := rfl
@[simp] theorem State.enterIsr_kisr (s : State) : (s.enterIsr).kisr = .active [.ret] := rfl
@[simp] theorem State.enterIsr_feed (s : State) : (s.enterIsr).feed = s.feed := rfl
@[simp] theorem State.enterIsr_answers (s : State) : (s.enterIsr).answers = s.answers := rfl
@[simp] theorem State.enterIsr_returned (s : State) : (s.enterIsr).returned = s.returned := rfl
@[simp] theorem State.enterIsr_free (s : State) : (s.enterIsr).free = s.free := rfl

/-! ## `leaveIsr` -/

@[simp] theorem State.leaveIsr_cfg (s : State) : (s.leaveIsr).cfg = s.cfg := rfl
@[simp] theorem State.leaveIsr_ram (s : State) : (s.leaveIsr).ram = s.ram := rfl
@[simp] theorem State.leaveIsr_bdt (s : State) : (s.leaveIsr).bdt = s.bdt := rfl
@[simp] theorem State.leaveIsr_outTog (s : State) : (s.leaveIsr).outTog = s.outTog := rfl
@[simp] theorem State.leaveIsr_inTog (s : State) : (s.leaveIsr).inTog = s.inTog := rfl
@[simp] theorem State.leaveIsr_epStall (s : State) : (s.leaveIsr).epStall = s.epStall := rfl
@[simp] theorem State.leaveIsr_addr (s : State) : (s.leaveIsr).addr = s.addr := rfl
@[simp] theorem State.leaveIsr_rstf (s : State) : (s.leaveIsr).rstf = s.rstf := rfl
@[simp] theorem State.leaveIsr_stallf (s : State) : (s.leaveIsr).stallf = s.stallf := rfl
@[simp] theorem State.leaveIsr_ueir (s : State) : (s.leaveIsr).ueir = s.ueir := rfl
@[simp] theorem State.leaveIsr_ustatq (s : State) : (s.leaveIsr).ustatq = s.ustatq := rfl
@[simp] theorem State.leaveIsr_pktdis (s : State) : (s.leaveIsr).pktdis = s.pktdis := rfl
@[simp] theorem State.leaveIsr_gie (s : State) : (s.leaveIsr).gie = s.gie := rfl
@[simp] theorem State.leaveIsr_inisr (s : State) : (s.leaveIsr).inisr = false := rfl
@[simp] theorem State.leaveIsr_ctrl (s : State) : (s.leaveIsr).ctrl = s.ctrl := rfl
@[simp] theorem State.leaveIsr_pendAddr (s : State) : (s.leaveIsr).pendAddr = s.pendAddr := rfl
@[simp] theorem State.leaveIsr_rxbuf (s : State) : (s.leaveIsr).rxbuf = s.rxbuf := rfl
@[simp] theorem State.leaveIsr_rd (s : State) : (s.leaveIsr).rd = s.rd := rfl
@[simp] theorem State.leaveIsr_wr (s : State) : (s.leaveIsr).wr = s.wr := rfl
@[simp] theorem State.leaveIsr_occ (s : State) : (s.leaveIsr).occ = s.occ := rfl
@[simp] theorem State.leaveIsr_txReady (s : State) : (s.leaveIsr).txReady = s.txReady := rfl
@[simp] theorem State.leaveIsr_lineCoding (s : State) : (s.leaveIsr).lineCoding = s.lineCoding := rfl
@[simp] theorem State.leaveIsr_diag (s : State) : (s.leaveIsr).diag = s.diag := rfl
@[simp] theorem State.leaveIsr_fault (s : State) : (s.leaveIsr).fault = s.fault := rfl
@[simp] theorem State.leaveIsr_kfg (s : State) : (s.leaveIsr).kfg = s.kfg := rfl
@[simp] theorem State.leaveIsr_kisr (s : State) : (s.leaveIsr).kisr = .inactive := rfl
@[simp] theorem State.leaveIsr_feed (s : State) : (s.leaveIsr).feed = s.feed := rfl
@[simp] theorem State.leaveIsr_answers (s : State) : (s.leaveIsr).answers = s.answers := rfl
@[simp] theorem State.leaveIsr_returned (s : State) : (s.leaveIsr).returned = s.returned := rfl
@[simp] theorem State.leaveIsr_free (s : State) : (s.leaveIsr).free = s.free := rfl

/-! ## `di` -/

@[simp] theorem State.di_cfg (s : State) : (s.di).cfg = s.cfg := rfl
@[simp] theorem State.di_ram (s : State) : (s.di).ram = s.ram := rfl
@[simp] theorem State.di_bdt (s : State) : (s.di).bdt = s.bdt := rfl
@[simp] theorem State.di_outTog (s : State) : (s.di).outTog = s.outTog := rfl
@[simp] theorem State.di_inTog (s : State) : (s.di).inTog = s.inTog := rfl
@[simp] theorem State.di_epStall (s : State) : (s.di).epStall = s.epStall := rfl
@[simp] theorem State.di_addr (s : State) : (s.di).addr = s.addr := rfl
@[simp] theorem State.di_rstf (s : State) : (s.di).rstf = s.rstf := rfl
@[simp] theorem State.di_stallf (s : State) : (s.di).stallf = s.stallf := rfl
@[simp] theorem State.di_ueir (s : State) : (s.di).ueir = s.ueir := rfl
@[simp] theorem State.di_ustatq (s : State) : (s.di).ustatq = s.ustatq := rfl
@[simp] theorem State.di_pktdis (s : State) : (s.di).pktdis = s.pktdis := rfl
@[simp] theorem State.di_gie (s : State) : (s.di).gie = false := rfl
@[simp] theorem State.di_inisr (s : State) : (s.di).inisr = s.inisr := rfl
@[simp] theorem State.di_ctrl (s : State) : (s.di).ctrl = s.ctrl := rfl
@[simp] theorem State.di_pendAddr (s : State) : (s.di).pendAddr = s.pendAddr := rfl
@[simp] theorem State.di_rxbuf (s : State) : (s.di).rxbuf = s.rxbuf := rfl
@[simp] theorem State.di_rd (s : State) : (s.di).rd = s.rd := rfl
@[simp] theorem State.di_wr (s : State) : (s.di).wr = s.wr := rfl
@[simp] theorem State.di_occ (s : State) : (s.di).occ = s.occ := rfl
@[simp] theorem State.di_txReady (s : State) : (s.di).txReady = s.txReady := rfl
@[simp] theorem State.di_lineCoding (s : State) : (s.di).lineCoding = s.lineCoding := rfl
@[simp] theorem State.di_diag (s : State) : (s.di).diag = s.diag := rfl
@[simp] theorem State.di_fault (s : State) : (s.di).fault = s.fault := rfl
@[simp] theorem State.di_kfg (s : State) : (s.di).kfg = s.kfg := rfl
@[simp] theorem State.di_kisr (s : State) : (s.di).kisr = s.kisr := rfl
@[simp] theorem State.di_feed (s : State) : (s.di).feed = s.feed := rfl
@[simp] theorem State.di_answers (s : State) : (s.di).answers = s.answers := rfl
@[simp] theorem State.di_returned (s : State) : (s.di).returned = s.returned := rfl
@[simp] theorem State.di_free (s : State) : (s.di).free = s.free := rfl

/-! ## `ei` -/

@[simp] theorem State.ei_cfg (s : State) : (s.ei).cfg = s.cfg := rfl
@[simp] theorem State.ei_ram (s : State) : (s.ei).ram = s.ram := rfl
@[simp] theorem State.ei_bdt (s : State) : (s.ei).bdt = s.bdt := rfl
@[simp] theorem State.ei_outTog (s : State) : (s.ei).outTog = s.outTog := rfl
@[simp] theorem State.ei_inTog (s : State) : (s.ei).inTog = s.inTog := rfl
@[simp] theorem State.ei_epStall (s : State) : (s.ei).epStall = s.epStall := rfl
@[simp] theorem State.ei_addr (s : State) : (s.ei).addr = s.addr := rfl
@[simp] theorem State.ei_rstf (s : State) : (s.ei).rstf = s.rstf := rfl
@[simp] theorem State.ei_stallf (s : State) : (s.ei).stallf = s.stallf := rfl
@[simp] theorem State.ei_ueir (s : State) : (s.ei).ueir = s.ueir := rfl
@[simp] theorem State.ei_ustatq (s : State) : (s.ei).ustatq = s.ustatq := rfl
@[simp] theorem State.ei_pktdis (s : State) : (s.ei).pktdis = s.pktdis := rfl
@[simp] theorem State.ei_gie (s : State) : (s.ei).gie = true := rfl
@[simp] theorem State.ei_inisr (s : State) : (s.ei).inisr = s.inisr := rfl
@[simp] theorem State.ei_ctrl (s : State) : (s.ei).ctrl = s.ctrl := rfl
@[simp] theorem State.ei_pendAddr (s : State) : (s.ei).pendAddr = s.pendAddr := rfl
@[simp] theorem State.ei_rxbuf (s : State) : (s.ei).rxbuf = s.rxbuf := rfl
@[simp] theorem State.ei_rd (s : State) : (s.ei).rd = s.rd := rfl
@[simp] theorem State.ei_wr (s : State) : (s.ei).wr = s.wr := rfl
@[simp] theorem State.ei_occ (s : State) : (s.ei).occ = s.occ := rfl
@[simp] theorem State.ei_txReady (s : State) : (s.ei).txReady = s.txReady := rfl
@[simp] theorem State.ei_lineCoding (s : State) : (s.ei).lineCoding = s.lineCoding := rfl
@[simp] theorem State.ei_diag (s : State) : (s.ei).diag = s.diag := rfl
@[simp] theorem State.ei_fault (s : State) : (s.ei).fault = s.fault := rfl
@[simp] theorem State.ei_kfg (s : State) : (s.ei).kfg = s.kfg := rfl
@[simp] theorem State.ei_kisr (s : State) : (s.ei).kisr = s.kisr := rfl
@[simp] theorem State.ei_feed (s : State) : (s.ei).feed = s.feed := rfl
@[simp] theorem State.ei_answers (s : State) : (s.ei).answers = s.answers := rfl
@[simp] theorem State.ei_returned (s : State) : (s.ei).returned = s.returned := rfl
@[simp] theorem State.ei_free (s : State) : (s.ei).free = s.free := rfl

/-! ## `answer` -/

@[simp] theorem State.answer_cfg (s : State) (a : Answer) : (s.answer a).cfg = s.cfg := rfl
@[simp] theorem State.answer_ram (s : State) (a : Answer) : (s.answer a).ram = s.ram := rfl
@[simp] theorem State.answer_bdt (s : State) (a : Answer) : (s.answer a).bdt = s.bdt := rfl
@[simp] theorem State.answer_outTog (s : State) (a : Answer) : (s.answer a).outTog = s.outTog := rfl
@[simp] theorem State.answer_inTog (s : State) (a : Answer) : (s.answer a).inTog = s.inTog := rfl
@[simp] theorem State.answer_epStall (s : State) (a : Answer) : (s.answer a).epStall = s.epStall := rfl
@[simp] theorem State.answer_addr (s : State) (a : Answer) : (s.answer a).addr = s.addr := rfl
@[simp] theorem State.answer_rstf (s : State) (a : Answer) : (s.answer a).rstf = s.rstf := rfl
@[simp] theorem State.answer_stallf (s : State) (a : Answer) : (s.answer a).stallf = s.stallf := rfl
@[simp] theorem State.answer_ueir (s : State) (a : Answer) : (s.answer a).ueir = s.ueir := rfl
@[simp] theorem State.answer_ustatq (s : State) (a : Answer) : (s.answer a).ustatq = s.ustatq := rfl
@[simp] theorem State.answer_pktdis (s : State) (a : Answer) : (s.answer a).pktdis = s.pktdis := rfl
@[simp] theorem State.answer_gie (s : State) (a : Answer) : (s.answer a).gie = s.gie := rfl
@[simp] theorem State.answer_inisr (s : State) (a : Answer) : (s.answer a).inisr = s.inisr := rfl
@[simp] theorem State.answer_ctrl (s : State) (a : Answer) : (s.answer a).ctrl = s.ctrl := rfl
@[simp] theorem State.answer_pendAddr (s : State) (a : Answer) : (s.answer a).pendAddr = s.pendAddr := rfl
@[simp] theorem State.answer_rxbuf (s : State) (a : Answer) : (s.answer a).rxbuf = s.rxbuf := rfl
@[simp] theorem State.answer_rd (s : State) (a : Answer) : (s.answer a).rd = s.rd := rfl
@[simp] theorem State.answer_wr (s : State) (a : Answer) : (s.answer a).wr = s.wr := rfl
@[simp] theorem State.answer_occ (s : State) (a : Answer) : (s.answer a).occ = s.occ := rfl
@[simp] theorem State.answer_txReady (s : State) (a : Answer) : (s.answer a).txReady = s.txReady := rfl
@[simp] theorem State.answer_lineCoding (s : State) (a : Answer) : (s.answer a).lineCoding = s.lineCoding := rfl
@[simp] theorem State.answer_diag (s : State) (a : Answer) : (s.answer a).diag = s.diag := rfl
@[simp] theorem State.answer_fault (s : State) (a : Answer) : (s.answer a).fault = s.fault := rfl
@[simp] theorem State.answer_kfg (s : State) (a : Answer) : (s.answer a).kfg = s.kfg := rfl
@[simp] theorem State.answer_kisr (s : State) (a : Answer) : (s.answer a).kisr = s.kisr := rfl
@[simp] theorem State.answer_feed (s : State) (a : Answer) : (s.answer a).feed = s.feed := rfl
@[simp] theorem State.answer_answers (s : State) (a : Answer) : (s.answer a).answers = s.answers ++ [a] := rfl
@[simp] theorem State.answer_returned (s : State) (a : Answer) : (s.answer a).returned = s.returned := rfl
@[simp] theorem State.answer_free (s : State) (a : Answer) : (s.answer a).free = s.free := rfl

/-! ## `setFeed` -/

@[simp] theorem State.setFeed_cfg (s : State) (l : List Line) : (s.setFeed l).cfg = s.cfg := rfl
@[simp] theorem State.setFeed_ram (s : State) (l : List Line) : (s.setFeed l).ram = s.ram := rfl
@[simp] theorem State.setFeed_bdt (s : State) (l : List Line) : (s.setFeed l).bdt = s.bdt := rfl
@[simp] theorem State.setFeed_outTog (s : State) (l : List Line) : (s.setFeed l).outTog = s.outTog := rfl
@[simp] theorem State.setFeed_inTog (s : State) (l : List Line) : (s.setFeed l).inTog = s.inTog := rfl
@[simp] theorem State.setFeed_epStall (s : State) (l : List Line) : (s.setFeed l).epStall = s.epStall := rfl
@[simp] theorem State.setFeed_addr (s : State) (l : List Line) : (s.setFeed l).addr = s.addr := rfl
@[simp] theorem State.setFeed_rstf (s : State) (l : List Line) : (s.setFeed l).rstf = s.rstf := rfl
@[simp] theorem State.setFeed_stallf (s : State) (l : List Line) : (s.setFeed l).stallf = s.stallf := rfl
@[simp] theorem State.setFeed_ueir (s : State) (l : List Line) : (s.setFeed l).ueir = s.ueir := rfl
@[simp] theorem State.setFeed_ustatq (s : State) (l : List Line) : (s.setFeed l).ustatq = s.ustatq := rfl
@[simp] theorem State.setFeed_pktdis (s : State) (l : List Line) : (s.setFeed l).pktdis = s.pktdis := rfl
@[simp] theorem State.setFeed_gie (s : State) (l : List Line) : (s.setFeed l).gie = s.gie := rfl
@[simp] theorem State.setFeed_inisr (s : State) (l : List Line) : (s.setFeed l).inisr = s.inisr := rfl
@[simp] theorem State.setFeed_ctrl (s : State) (l : List Line) : (s.setFeed l).ctrl = s.ctrl := rfl
@[simp] theorem State.setFeed_pendAddr (s : State) (l : List Line) : (s.setFeed l).pendAddr = s.pendAddr := rfl
@[simp] theorem State.setFeed_rxbuf (s : State) (l : List Line) : (s.setFeed l).rxbuf = s.rxbuf := rfl
@[simp] theorem State.setFeed_rd (s : State) (l : List Line) : (s.setFeed l).rd = s.rd := rfl
@[simp] theorem State.setFeed_wr (s : State) (l : List Line) : (s.setFeed l).wr = s.wr := rfl
@[simp] theorem State.setFeed_occ (s : State) (l : List Line) : (s.setFeed l).occ = s.occ := rfl
@[simp] theorem State.setFeed_txReady (s : State) (l : List Line) : (s.setFeed l).txReady = s.txReady := rfl
@[simp] theorem State.setFeed_lineCoding (s : State) (l : List Line) : (s.setFeed l).lineCoding = s.lineCoding := rfl
@[simp] theorem State.setFeed_diag (s : State) (l : List Line) : (s.setFeed l).diag = s.diag := rfl
@[simp] theorem State.setFeed_fault (s : State) (l : List Line) : (s.setFeed l).fault = s.fault := rfl
@[simp] theorem State.setFeed_kfg (s : State) (l : List Line) : (s.setFeed l).kfg = s.kfg := rfl
@[simp] theorem State.setFeed_kisr (s : State) (l : List Line) : (s.setFeed l).kisr = s.kisr := rfl
@[simp] theorem State.setFeed_feed (s : State) (l : List Line) : (s.setFeed l).feed = l := rfl
@[simp] theorem State.setFeed_answers (s : State) (l : List Line) : (s.setFeed l).answers = s.answers := rfl
@[simp] theorem State.setFeed_returned (s : State) (l : List Line) : (s.setFeed l).returned = s.returned := rfl
@[simp] theorem State.setFeed_free (s : State) (l : List Line) : (s.setFeed l).free = s.free := rfl

/-! ## Descriptors -/

@[simp] theorem State.bd_setBd_same (s : State) (sl : Slot) (b : BD) : (s.setBd sl b).bd sl = b := by cases sl <;> rfl

theorem State.bd_setBd_of_ne (s : State) {sl sl' : Slot} (b : BD) (h : sl' ≠ sl) : (s.setBd sl b).bd sl' = s.bd sl' := by
  cases sl <;> cases sl' <;> first | rfl | exact absurd rfl h

/-- A descriptor depends on the table alone. -/
theorem State.bd_congr {s t : State} (h : t.bdt = s.bdt) (sl : Slot) : t.bd sl = s.bd sl := by
  cases sl <;> simp [State.bd, h]

@[simp] theorem State.bd_setRam (s : State) (m : Memory) (sl : Slot) : (s.setRam m).bd sl = s.bd sl := by cases sl <;> rfl

@[simp] theorem State.bd_setFree (s : State) (n : Nat) (sl : Slot) : (s.setFree n).bd sl = s.bd sl := by cases sl <;> rfl

@[simp] theorem State.bd_setFeed (s : State) (l : List Line) (sl : Slot) : (s.setFeed l).bd sl = s.bd sl := by
  cases sl <;> rfl

/-- The first fault raised is the one recorded (10_state R42). -/
theorem State.raise_fault_none (s : State) (c : Fault) (h : s.fault = none) : (s.raise c).fault = some c := by
  simp [State.raise, h]

theorem State.raise_fault_some (s : State) (c c' : Fault) (h : s.fault = some c') : (s.raise c).fault = some c' := by
  simp [State.raise, h]

end Sys2Proof.Machine
end

