-- ==== Sys2Proof/Laws/Memory.lean ====
section
/-! SUPPORT. USB RAM: the canonical form is kept by every write, a read after a write gives the value written, and a write
leaves every other address alone. -/

namespace Sys2Proof.Machine

namespace Memory

theorem wf_cons {a : Nat} {b : Byte} {m : Memory} :
    Memory.wf ((a, b) :: m) = true ↔ b ≠ Memory.unlisted ∧ (∀ c ∈ m, a < c.1) ∧ Memory.wf m = true := by
  simp [Memory.wf, and_assoc]

theorem get_of_lt {k : Nat} : ∀ {m : Memory}, (∀ c ∈ m, k < c.1) → Memory.get m k = Memory.unlisted
  | [], _ => rfl
  | (a, b) :: m, h => by
    have h1 : k < a := h (a, b) (by simp)
    have h2 : Memory.get m k = Memory.unlisted := get_of_lt fun c hc => h c (by simp [hc])
    simp [Memory.get, h2, Nat.ne_of_lt h1]

theorem get_cons (k : Nat) (v : Byte) {m : Memory} (h : ∀ c ∈ m, k < c.1) (j : Nat) :
    Memory.get (Memory.cons k v m) j = if j = k then v else Memory.get m j := by
  unfold Memory.cons
  split
  · next hv =>
    split
    · next hj => rw [hj, hv, get_of_lt h]
    · rfl
  · simp [Memory.get]

theorem wf_tail_of_lt {k : Nat} {v : Byte} {m : Memory} (h : ∀ c ∈ m, k < c.1) (hw : Memory.wf m = true) :
    Memory.wf (Memory.cons k v m) = true := by
  unfold Memory.cons
  split
  · exact hw
  · next hv => exact wf_cons.mpr ⟨hv, h, hw⟩

/-- A key of a written memory is the written one or was there before. -/
theorem mem_set {k : Nat} {v : Byte} : ∀ {m : Memory} {c : Host.Cell}, c ∈ Memory.set m k v → c.1 = k ∨ c ∈ m
  | [], c, h => by
    simp only [Memory.set, Memory.cons] at h
    split at h <;> simp_all
  | (a, b) :: m, c, h => by
    simp only [Memory.set] at h
    split at h
    · unfold Memory.cons at h
      split at h
      · exact .inr h
      · rcases List.mem_cons.mp h with h | h
        · exact .inl (by rw [h])
        · exact .inr h
    · split at h
      · unfold Memory.cons at h
        split at h
        · exact .inr (List.mem_cons_of_mem _ h)
        · rcases List.mem_cons.mp h with h | h
          · exact .inl (by rw [h])
          · exact .inr (List.mem_cons_of_mem _ h)
      · rcases List.mem_cons.mp h with h | h
        · exact .inr (by simp [h])
        · rcases mem_set h with h | h
          · exact .inl h
          · exact .inr (List.mem_cons_of_mem _ h)

/-- Every write keeps the canonical form. -/
theorem wf_set (k : Nat) (v : Byte) : ∀ {m : Memory}, Memory.wf m = true → Memory.wf (Memory.set m k v) = true
  | [], _ => wf_tail_of_lt (by simp) rfl
  | (a, b) :: m, h => by
    obtain ⟨hb, hlt, hm⟩ := wf_cons.mp h
    simp only [Memory.set]
    split
    · next hk =>
      refine wf_tail_of_lt ?_ h
      intro c hc
      rcases List.mem_cons.mp hc with rfl | hc
      · exact hk
      · exact Nat.lt_trans hk (hlt c hc)
    · split
      · next hk =>
        subst hk
        exact wf_tail_of_lt hlt hm
      · refine wf_cons.mpr ⟨hb, ?_, wf_set k v hm⟩
        intro c hc
        rcases mem_set hc with h1 | h1
        · omega
        · exact hlt c h1

/-- What a canonical memory reads as after a write. -/
theorem get_set (k : Nat) (v : Byte) (j : Nat) :
    ∀ {m : Memory}, Memory.wf m = true → Memory.get (Memory.set m k v) j = if j = k then v else Memory.get m j
  | [], _ => get_cons k v (by simp) j
  | (a, b) :: m, h => by
    obtain ⟨_, hlt, hm⟩ := wf_cons.mp h
    simp only [Memory.set]
    split
    · next hk =>
      refine get_cons k v ?_ j
      intro c hc
      rcases List.mem_cons.mp hc with rfl | hc
      · exact hk
      · exact Nat.lt_trans hk (hlt c hc)
    · split
      · next hk =>
        subst hk
        rw [get_cons k v hlt j]
        split
        · rfl
        · next hj => simp [Memory.get, hj]
      · next hk =>
        simp only [Memory.get]
        rw [get_set k v j hm]
        split
        · next hj => rw [if_neg (by omega)]
        · rfl

end Memory

theorem memWriteFrom_wf (adr : BitVec 16) :
    ∀ (d : List Byte) (i : Nat) {m : Memory}, m.wf = true → (memWriteFrom m adr i d).wf = true
  | [], _, _, h => h
  | _ :: d, i, _, h => memWriteFrom_wf adr d (i + 1) (Memory.wf_set _ _ h)

/-- `MemWrite` keeps the canonical form. -/
theorem memWrite_wf (adr : BitVec 16) (d : List Byte) {m : Memory} (h : m.wf = true) : (memWrite m adr d).wf = true :=
  memWriteFrom_wf adr d 0 h

theorem memWriteFrom_get_other (adr : BitVec 16) (k : Nat) :
    ∀ (d : List Byte) (i : Nat) {m : Memory}, m.wf = true → (∀ j, i ≤ j → j < i + d.length → k ≠ bufAddr adr j) →
      (memWriteFrom m adr i d).get k = m.get k
  | [], _, _, _, _ => rfl
  | b :: d, i, m, hw, h => by
    have ih := memWriteFrom_get_other adr k d (i + 1) (Memory.wf_set (bufAddr adr i) b hw)
      (fun j h1 h2 => h j (by omega) (by simp; omega))
    have hne : k ≠ bufAddr adr i := h i (Nat.le_refl _) (by simp)
    simp only [memWriteFrom]
    rw [ih, Memory.get_set _ _ _ hw, if_neg hne]

/-- `MemWrite` leaves every byte outside the written ones as it was. -/
theorem memWrite_get_other (adr : BitVec 16) (d : List Byte) (k : Nat) {m : Memory} (hw : m.wf = true)
    (h : ∀ i, i < d.length → k ≠ bufAddr adr i) : (memWrite m adr d).get k = m.get k :=
  memWriteFrom_get_other adr k d 0 hw (fun j _ h2 => h j (by omega))

/-- Distinct positions of a buffer have distinct addresses. -/
theorem bufAddr_injective (adr : BitVec 16) {i j : Nat} (hi : i < 65536) (hj : j < 65536)
    (h : bufAddr adr i = bufAddr adr j) : i = j := by
  have h1 : (BitVec.ofNat 16 i) = BitVec.ofNat 16 j := by
    have h2 : adr + BitVec.ofNat 16 i = adr + BitVec.ofNat 16 j := BitVec.eq_of_toNat_eq h
    exact (BitVec.add_right_inj adr).mp h2
  have h3 := congrArg BitVec.toNat h1
  simp only [BitVec.toNat_ofNat] at h3
  omega

theorem memWriteFrom_get_same (adr : BitVec 16) :
    ∀ (d : List Byte) (i j : Nat) {m : Memory}, m.wf = true → i + d.length ≤ 65536 → (hj : j < d.length) →
      (memWriteFrom m adr i d).get (bufAddr adr (i + j)) = d[j]
  | b :: d, i, j, m, hw, hl, hj => by
    simp only [List.length_cons] at hl hj
    simp only [memWriteFrom]
    cases j with
    | zero =>
      rw [memWriteFrom_get_other adr _ d (i + 1) (Memory.wf_set _ _ hw)]
      · simp [Memory.get_set _ _ _ hw]
      · intro k h1 h2 h3
        have := bufAddr_injective adr (by omega) (by omega) h3
        omega
    | succ j =>
      have := memWriteFrom_get_same adr d (i + 1) j (Memory.wf_set (bufAddr adr i) b hw) (by omega) (by omega)
      rw [show i + (j + 1) = i + 1 + j by omega]
      simpa using this

/-- `MemRead` after `MemWrite` at the same address gives the bytes written. -/
theorem memRead_memWrite (adr : BitVec 16) (d : List Byte) {m : Memory} (hw : m.wf = true) (hl : d.length ≤ 65536) :
    memRead (memWrite m adr d) adr d.length = d := by
  refine List.ext_getElem (by simp [memRead]) ?_
  intro i h1 h2
  have := memWriteFrom_get_same adr d 0 i hw (by omega) h2
  simpa [memRead, memWrite] using this

theorem memRead_length (m : Memory) (adr : BitVec 16) (n : Nat) : (memRead m adr n).length = n := by simp [memRead]

end Sys2Proof.Machine
end

