-- ==== Sys2Proof/Laws/Arming.lean ====
section
/-! SUPPORT. Everything an arming operation can do in one step, what the rest of an invocation can change, and when the
rest of an invocation runs through. -/

namespace Sys2Proof.Machine

/-! ## The two guarded writes -/

theorem cpuWriteBd_of_cpu {sl : Slot} {f : BD → BD} {s : State} (h : (s.bd sl).own = .cpu) :
    cpuWriteBd sl f s = .ok (s.setBd sl (f (s.bd sl))) := by simp [cpuWriteBd, h]

theorem cpuWriteBuf_of_cpu {sl : Slot} {d : List Byte} {s : State} (h : (s.bd sl).own = .cpu) :
    cpuWriteBuf sl d s = .ok (s.setRam (memWrite s.ram (s.bd sl).adr d)) := by simp [cpuWriteBuf, h]

/-! ## `arm_out` -/

theorem armOutRun_of_none {ep : BitVec 4} (t : Bool) (s : State) (h : slotOf ep .out = none) :
    armOutRun ep t s = .raised .noDescriptor := by simp [armOutRun, h]

theorem armOutRun_of_sie {ep : BitVec 4} {sl : Slot} (t : Bool) {s : State} (h : slotOf ep .out = some sl)
    (ho : (s.bd sl).own = .sie) : armOutRun ep t s = .hold := by simp [armOutRun, h, ho]

theorem armOutRun_of_cpu {ep : BitVec 4} {sl : Slot} (t : Bool) {s : State} (h : slotOf ep .out = some sl)
    (ho : (s.bd sl).own = .cpu) : armOutRun ep t s = .done (s.setBd sl (armedOut t (s.bd sl))) := by
  simp [armOutRun, h, ho, cpuWriteBd_of_cpu ho, ArmRes.ofWrite]

/-- Everything a completed `arm_out` does. -/
theorem armOutRun_done {ep : BitVec 4} {t : Bool} {s u : State} (h : armOutRun ep t s = .done u) :
    ∃ sl, slotOf ep .out = some sl ∧ (s.bd sl).own = .cpu ∧ u = s.setBd sl (armedOut t (s.bd sl)) := by
  cases hs : slotOf ep .out with
  | none => simp [armOutRun_of_none t s hs] at h
  | some sl =>
    cases ho : (s.bd sl).own with
    | sie => simp [armOutRun_of_sie t hs ho] at h
    | cpu =>
      rw [armOutRun_of_cpu t hs ho, ArmRes.done.injEq] at h
      exact ⟨sl, rfl, ho, h.symm⟩

/-- `arm_out` raises F3 alone. -/
theorem armOutRun_raised {ep : BitVec 4} {t : Bool} {s : State} {c : Fault} (h : armOutRun ep t s = .raised c) :
    slotOf ep .out = none ∧ c = .noDescriptor := by
  cases hs : slotOf ep .out with
  | none => simpa [armOutRun_of_none t s hs, eq_comm] using h
  | some sl =>
    cases ho : (s.bd sl).own with
    | sie => simp [armOutRun_of_sie t hs ho] at h
    | cpu => simp [armOutRun_of_cpu t hs ho] at h

/-! ## `arm_in` -/

/-- The state a completed `arm_in` leaves. -/
def armInDone (sl : Slot) (data : Option (List Byte)) (len : Nat) (t : Bool) (s : State) : State :=
  match data with
  | none => s.setBd sl (armedIn len t (s.bd sl))
  | some d =>
    ((s.setRam (memWrite s.ram (s.bd sl).adr (armBytes d len s.free))).setFree (s.free + (len - d.length))).setBd sl
      (armedIn len t (s.bd sl))

theorem armInWrites_of_cpu {sl : Slot} (data : Option (List Byte)) (len : Nat) (t : Bool) {s : State}
    (ho : (s.bd sl).own = .cpu) : armInWrites sl data len t s = .ok (armInDone sl data len t s) := by
  cases data with
  | none => simp [armInWrites, armInDone, cpuWriteBd_of_cpu ho]
  | some d => simp [armInWrites, cpuWriteBuf_of_cpu ho, cpuWriteBd, ho, armInDone]

/-- The length checks of `arm_in` (60_exceptions R160). -/
def armInArgsOk (data : Option (List Byte)) (len : Nat) : Prop := len ≤ Config.maxP ∧ ¬(data = none ∧ 0 < len)

theorem armInRun_of_overlength {ep : BitVec 4} (data : Option (List Byte)) {len : Nat} (t : Bool) (s : State)
    (h : Config.maxP < len) : armInRun ep data len t s = .raised .armInOverlength := by simp [armInRun, h]

theorem armInRun_of_nodata {ep : BitVec 4} {len : Nat} (t : Bool) (s : State) (h : len ≤ Config.maxP) (h0 : 0 < len) :
    armInRun ep none len t s = .raised .armInNodata := by simp [armInRun, Nat.not_lt.mpr h, h0]

theorem armInRun_of_none {ep : BitVec 4} {data : Option (List Byte)} {len : Nat} (t : Bool) (s : State)
    (ha : armInArgsOk data len) (h : slotOf ep .inn = none) : armInRun ep data len t s = .raised .noDescriptor := by
  simp [armInRun, Nat.not_lt.mpr ha.1, ha.2, h]

theorem armInRun_of_sie {ep : BitVec 4} {sl : Slot} {data : Option (List Byte)} {len : Nat} (t : Bool) {s : State}
    (ha : armInArgsOk data len) (h : slotOf ep .inn = some sl) (ho : (s.bd sl).own = .sie) :
    armInRun ep data len t s = .hold := by simp [armInRun, Nat.not_lt.mpr ha.1, ha.2, h, ho]

theorem armInRun_of_cpu {ep : BitVec 4} {sl : Slot} {data : Option (List Byte)} {len : Nat} (t : Bool) {s : State}
    (ha : armInArgsOk data len) (h : slotOf ep .inn = some sl) (ho : (s.bd sl).own = .cpu) :
    armInRun ep data len t s = .done (armInDone sl data len t s) := by
  simp [armInRun, Nat.not_lt.mpr ha.1, ha.2, h, ho, armInWrites_of_cpu data len t ho, ArmRes.ofWrite]

/-- Everything a completed `arm_in` does. -/
theorem armInRun_done {ep : BitVec 4} {data : Option (List Byte)} {len : Nat} {t : Bool} {s u : State}
    (h : armInRun ep data len t s = .done u) :
    ∃ sl, slotOf ep .inn = some sl ∧ (s.bd sl).own = .cpu ∧ armInArgsOk data len ∧ u = armInDone sl data len t s := by
  by_cases hl : Config.maxP < len
  · simp [armInRun_of_overlength data t s hl] at h
  by_cases hd : data = none ∧ 0 < len
  · obtain ⟨rfl, h0⟩ := hd
    simp [armInRun_of_nodata t s (Nat.not_lt.mp hl) h0] at h
  have ha : armInArgsOk data len := ⟨Nat.not_lt.mp hl, hd⟩
  cases hs : slotOf ep .inn with
  | none => simp [armInRun_of_none t s ha hs] at h
  | some sl =>
    cases ho : (s.bd sl).own with
    | sie => simp [armInRun_of_sie t ha hs ho] at h
    | cpu =>
      rw [armInRun_of_cpu t ha hs ho, ArmRes.done.injEq] at h
      exact ⟨sl, rfl, ho, ha, h.symm⟩

/-! ## `stall_in` -/

theorem stallInRun_of_none {ep : BitVec 4} (s : State) (h : slotOf ep .inn = none) :
    stallInRun ep s = .raised .noDescriptor := by simp [stallInRun, h]

theorem stallInRun_of_sie {ep : BitVec 4} {sl : Slot} {s : State} (h : slotOf ep .inn = some sl)
    (ho : (s.bd sl).own = .sie) : stallInRun ep s = .hold := by simp [stallInRun, h, ho]

theorem stallInRun_of_cpu {ep : BitVec 4} {sl : Slot} {s : State} (h : slotOf ep .inn = some sl)
    (ho : (s.bd sl).own = .cpu) : stallInRun ep s = .done (s.setBd sl (armedStall (s.bd sl))) := by
  simp [stallInRun, h, ho, cpuWriteBd_of_cpu ho, ArmRes.ofWrite]

/-- Everything a completed `stall_in` does. -/
theorem stallInRun_done {ep : BitVec 4} {s u : State} (h : stallInRun ep s = .done u) :
    ∃ sl, slotOf ep .inn = some sl ∧ (s.bd sl).own = .cpu ∧ u = s.setBd sl (armedStall (s.bd sl)) := by
  cases hs : slotOf ep .inn with
  | none => simp [stallInRun_of_none s hs] at h
  | some sl =>
    cases ho : (s.bd sl).own with
    | sie => simp [stallInRun_of_sie hs ho] at h
    | cpu =>
      rw [stallInRun_of_cpu hs ho, ArmRes.done.injEq] at h
      exact ⟨sl, rfl, ho, h.symm⟩

/-! ## Any arming operation -/

/-- The state but for what an arming operation may write: USB RAM, the descriptor table and the count of free values. -/
def State.exceptArm (s : State) : State := { s with ram := [], bdt := (State.launch s.cfg).bdt, free := 0 }

/-- An arming operation writes USB RAM, the descriptor table and the count of free values alone. -/
theorem ArmOp.run_frame {a : ArmOp} {s u : State} (h : a.run s = .done u) : u.exceptArm = s.exceptArm := by
  cases a with
  | armOut ep t =>
    obtain ⟨sl, -, -, rfl⟩ := armOutRun_done h
    cases sl <;> rfl
  | armIn ep data len t =>
    obtain ⟨sl, -, -, -, rfl⟩ := armInRun_done h
    cases data <;> cases sl <;> rfl
  | stallIn ep =>
    obtain ⟨sl, -, -, rfl⟩ := stallInRun_done h
    cases sl <;> rfl

/-- An arming operation keeps USB RAM canonical. -/
theorem ArmOp.run_memOk {a : ArmOp} {s u : State} (h : a.run s = .done u) (hw : MemOk s) : MemOk u := by
  unfold MemOk at hw ⊢
  cases a with
  | armOut ep t =>
    obtain ⟨sl, -, -, rfl⟩ := armOutRun_done h
    simpa using hw
  | armIn ep data len t =>
    obtain ⟨sl, -, -, -, rfl⟩ := armInRun_done h
    cases data with
    | none => simpa [armInDone] using hw
    | some d => simpa [armInDone] using memWrite_wf _ _ hw
  | stallIn ep =>
    obtain ⟨sl, -, -, rfl⟩ := stallInRun_done h
    simpa using hw

/-! ## The rest of an invocation -/

@[simp] theorem State.atHold_kisr (s : State) (a : ArmOp) (k : List IsrOp) :
    (s.atHold a k).kisr = .active (.arm a :: k) := rfl
@[simp] theorem State.atHold_inisr (s : State) (a : ArmOp) (k : List IsrOp) : (s.atHold a k).inisr = true := rfl

@[simp] theorem drive_nil (b s : State) : drive b [] s = s := rfl
@[simp] theorem drive_ret (b : State) (k : List IsrOp) (s : State) : drive b (.ret :: k) s = s.leaveIsr := rfl
@[simp] theorem drive_pktdisOff (b : State) (k : List IsrOp) (s : State) :
    drive b (.pktdisOff :: k) s = drive b k { s with pktdis := false } := rfl
@[simp] theorem drive_dequeue (b : State) (k : List IsrOp) (s : State) :
    drive b (.dequeue :: k) s = drive b k { s with ustatq := s.ustatq.tail } := rfl

theorem drive_arm_done {a : ArmOp} {s u : State} (b : State) (k : List IsrOp) (h : a.run s = .done u) :
    drive b (.arm a :: k) s = drive (s.atHold a k) k u := by simp [drive, h]

theorem drive_arm_hold {a : ArmOp} {s : State} (b : State) (k : List IsrOp) (h : a.run s = .hold) :
    drive b (.arm a :: k) s = s.atHold a k := by simp [drive, h]

theorem drive_arm_raised {a : ArmOp} {s : State} {c : Fault} (b : State) (k : List IsrOp) (h : a.run s = .raised c) :
    drive b (.arm a :: k) s = b.raise c := by simp [drive, h]

@[simp] theorem segment_nil (b s : State) : segment b [] s = s := rfl
@[simp] theorem segment_ret (b : State) (k : List IsrOp) (s : State) : segment b (.ret :: k) s = s.leaveIsr := rfl
@[simp] theorem segment_pktdisOff (b : State) (k : List IsrOp) (s : State) :
    segment b (.pktdisOff :: k) s = segment b k { s with pktdis := false } := rfl
@[simp] theorem segment_dequeue (b : State) (k : List IsrOp) (s : State) :
    segment b (.dequeue :: k) s = segment b k { s with ustatq := s.ustatq.tail } := rfl

/-- Where an arming operation raises no fault, a step ends at its hold point. -/
theorem segment_arm {a : ArmOp} {s : State} (b : State) (k : List IsrOp) (h : ∀ c, a.run s ≠ .raised c) :
    segment b (.arm a :: k) s = s.atHold a k := by
  cases hr : a.run s with
  | raised c => exact absurd hr (h c)
  | done u => simp [segment, hr]
  | hold => simp [segment, hr]

theorem segment_arm_raised {a : ArmOp} {s : State} {c : Fault} (b : State) (k : List IsrOp) (h : a.run s = .raised c) :
    segment b (.arm a :: k) s = b.raise c := by simp [segment, h]

/-- A property that every operation of the rest keeps, and a fault and a hold point too, holds after it. -/
theorem drive_keeps (P : State → Prop) (hret : ∀ s, P s → P s.leaveIsr)
    (hpkt : ∀ s, P s → P { s with pktdis := false })
    (hdeq : ∀ s, P s → P { s with ustatq := s.ustatq.tail })
    (harm : ∀ a s u, P s → ArmOp.run a s = .done u → P u)
    (hhold : ∀ a k s, P s → P (s.atHold a k)) (hraise : ∀ s c, P s → P (s.raise c)) :
    ∀ (l : List IsrOp) {b s : State}, P b → P s → P (drive b l s)
  | [], _, _, _, hp => hp
  | .ret :: _, _, s, _, hp => hret s hp
  | .pktdisOff :: k, _, s, hb, hp => drive_keeps P hret hpkt hdeq harm hhold hraise k hb (hpkt s hp)
  | .dequeue :: k, _, s, hb, hp => drive_keeps P hret hpkt hdeq harm hhold hraise k hb (hdeq s hp)
  | .arm a :: k, b, s, hb, hp => by
    cases hr : a.run s with
    | done u =>
      rw [drive_arm_done b k hr]
      exact drive_keeps P hret hpkt hdeq harm hhold hraise k (hhold a k s hp) (harm a s u hp hr)
    | hold =>
      rw [drive_arm_hold b k hr]
      exact hhold a k s hp
    | raised c =>
      rw [drive_arm_raised b k hr]
      exact hraise b c hb

/-- The same for one atomic step. -/
theorem segment_keeps (P : State → Prop) (hret : ∀ s, P s → P s.leaveIsr)
    (hpkt : ∀ s, P s → P { s with pktdis := false })
    (hdeq : ∀ s, P s → P { s with ustatq := s.ustatq.tail })
    (hhold : ∀ a k s, P s → P (s.atHold a k)) (hraise : ∀ s c, P s → P (s.raise c)) :
    ∀ (l : List IsrOp) {b s : State}, P b → P s → P (segment b l s)
  | [], _, _, _, hp => hp
  | .ret :: _, _, s, _, hp => hret s hp
  | .pktdisOff :: k, _, s, hb, hp => segment_keeps P hret hpkt hdeq hhold hraise k hb (hpkt s hp)
  | .dequeue :: k, _, s, hb, hp => segment_keeps P hret hpkt hdeq hhold hraise k hb (hdeq s hp)
  | .arm a :: k, b, s, hb, hp => by
    cases hr : a.run s with
    | raised c =>
      rw [segment_arm_raised b k hr]
      exact hraise b c hb
    | done u =>
      rw [segment_arm b k (by simp [hr])]
      exact hhold a k s hp
    | hold =>
      rw [segment_arm b k (by simp [hr])]
      exact hhold a k s hp

/-- The state but for what the rest of an invocation may write. -/
def State.exceptDrive (s : State) : State :=
  { s.exceptArm with pktdis := false, ustatq := [], inisr := false, kisr := .inactive, fault := none }

/-- The rest of an invocation writes USB RAM, the descriptor table, PKTDIS, USTATQ, INISR, KISR, FAULT and the count of
free values alone; or a fault leaves the state before. -/
theorem drive_frame : ∀ (l : List IsrOp) (b s : State),
    (drive b l s).exceptDrive = s.exceptDrive ∨ ∃ c, drive b l s = b.raise c
  | [], _, _ => .inl rfl
  | .ret :: _, _, _ => .inl rfl
  | .pktdisOff :: k, b, s => drive_frame k b { s with pktdis := false }
  | .dequeue :: k, b, s => drive_frame k b { s with ustatq := s.ustatq.tail }
  | .arm a :: k, b, s => by
    cases hr : a.run s with
    | done u =>
      rw [drive_arm_done b k hr]
      left
      obtain h | ⟨c, h⟩ := drive_frame k (s.atHold a k) u
      · rw [h]
        simp only [State.exceptDrive, ArmOp.run_frame hr]
      · rw [h]
        rfl
    | hold =>
      rw [drive_arm_hold b k hr]
      exact .inl rfl
    | raised c => exact .inr ⟨c, drive_arm_raised b k hr⟩

/-- The rest of an invocation keeps USB RAM canonical. -/
theorem drive_memOk (l : List IsrOp) {b s : State} (hb : MemOk b) (hw : MemOk s) : MemOk (drive b l s) :=
  drive_keeps MemOk (fun _ h => h) (fun _ h => h) (fun _ h => h) (fun _ _ _ hp hr => ArmOp.run_memOk hr hp)
    (fun _ _ _ h => h) (fun _ _ h => h) l hb hw

/-! ## What an arming operation reads

It reads neither INISR nor KISR, so the same operation from a hold point does the same. -/

/-- The same state in the ISR with this rest. -/
def State.inRest (s : State) (l : List IsrOp) : State := { s with inisr := true, kisr := .active l }

theorem State.atHold_eq (s : State) (a : ArmOp) (k : List IsrOp) : s.atHold a k = s.inRest (.arm a :: k) := rfl

theorem State.bd_inRest (s : State) (l : List IsrOp) (sl : Slot) : (s.inRest l).bd sl = s.bd sl := by cases sl <;> rfl

theorem State.setBd_inRest (s : State) (l : List IsrOp) (sl : Slot) (b : BD) :
    (s.inRest l).setBd sl b = (s.setBd sl b).inRest l := by cases sl <;> rfl

/-- The result of an arming operation from a state in the ISR. -/
def ArmRes.inRest (l : List IsrOp) : ArmRes → ArmRes
  | .done u => .done (u.inRest l)
  | .hold => .hold
  | .raised c => .raised c

theorem ArmOp.run_inRest (a : ArmOp) (s : State) (l : List IsrOp) : a.run (s.inRest l) = (a.run s).inRest l := by
  have hb : ∀ sl, (s.inRest l).bd sl = s.bd sl := s.bd_inRest l
  cases a with
  | armOut ep t =>
    show armOutRun ep t (s.inRest l) = (armOutRun ep t s).inRest l
    cases hs : slotOf ep .out with
    | none => rw [armOutRun_of_none t _ hs, armOutRun_of_none t _ hs]; rfl
    | some sl =>
      cases ho : (s.bd sl).own with
      | sie => rw [armOutRun_of_sie t hs ho, armOutRun_of_sie t hs (by rw [hb, ho])]; rfl
      | cpu =>
        rw [armOutRun_of_cpu t hs ho, armOutRun_of_cpu t hs (by rw [hb, ho]), hb, State.setBd_inRest]
        rfl
  | armIn ep data len t =>
    show armInRun ep data len t (s.inRest l) = (armInRun ep data len t s).inRest l
    by_cases hl : Config.maxP < len
    · rw [armInRun_of_overlength data t _ hl, armInRun_of_overlength data t _ hl]; rfl
    by_cases hd : data = none ∧ 0 < len
    · obtain ⟨rfl, h0⟩ := hd
      rw [armInRun_of_nodata t _ (Nat.not_lt.mp hl) h0, armInRun_of_nodata t _ (Nat.not_lt.mp hl) h0]; rfl
    have ha : armInArgsOk data len := ⟨Nat.not_lt.mp hl, hd⟩
    cases hs : slotOf ep .inn with
    | none => rw [armInRun_of_none t _ ha hs, armInRun_of_none t _ ha hs]; rfl
    | some sl =>
      cases ho : (s.bd sl).own with
      | sie => rw [armInRun_of_sie t ha hs ho, armInRun_of_sie t ha hs (by rw [hb, ho])]; rfl
      | cpu =>
        rw [armInRun_of_cpu t ha hs ho, armInRun_of_cpu t ha hs (by rw [hb, ho])]
        cases data <;> cases sl <;> rfl
  | stallIn ep =>
    show stallInRun ep (s.inRest l) = (stallInRun ep s).inRest l
    cases hs : slotOf ep .inn with
    | none => rw [stallInRun_of_none _ hs, stallInRun_of_none _ hs]; rfl
    | some sl =>
      cases ho : (s.bd sl).own with
      | sie => rw [stallInRun_of_sie hs ho, stallInRun_of_sie hs (by rw [hb, ho])]; rfl
      | cpu =>
        rw [stallInRun_of_cpu hs ho, stallInRun_of_cpu hs (by rw [hb, ho]), hb, State.setBd_inRest]
        rfl

theorem State.pktdisOff_inRest (s : State) (l : List IsrOp) :
    { s.inRest l with pktdis := false } = ({ s with pktdis := false } : State).inRest l := rfl

theorem State.dequeue_inRest (s : State) (l : List IsrOp) :
    { s.inRest l with ustatq := (s.inRest l).ustatq.tail } = ({ s with ustatq := s.ustatq.tail } : State).inRest l := rfl

theorem State.leaveIsr_inRest (s : State) (l : List IsrOp) : (s.inRest l).leaveIsr = s.leaveIsr := rfl

theorem State.atHold_inRest (s : State) (l k : List IsrOp) (a : ArmOp) : (s.inRest l).atHold a k = s.atHold a k := rfl

/-- What follows up to the return does not depend on the KISR it starts with. -/
theorem drive_inRest (l : List IsrOp) (k : List IsrOp) (b s : State) (h : .ret ∈ k) :
    drive b k (s.inRest l) = drive b k s := by
  induction k generalizing b s with
  | nil => cases h
  | cons o k ih =>
    cases o with
    | ret => rw [drive_ret, drive_ret, State.leaveIsr_inRest]
    | pktdisOff =>
      rw [drive_pktdisOff, drive_pktdisOff, State.pktdisOff_inRest]
      exact ih _ _ ((List.mem_cons.mp h).resolve_left (by simp))
    | dequeue =>
      rw [drive_dequeue, drive_dequeue, State.dequeue_inRest]
      exact ih _ _ ((List.mem_cons.mp h).resolve_left (by simp))
    | arm a =>
      have hr' := ArmOp.run_inRest a s l
      cases hr : a.run s with
      | done u =>
        rw [hr] at hr'
        rw [drive_arm_done b k hr, drive_arm_done b k hr', State.atHold_inRest]
        exact ih _ _ ((List.mem_cons.mp h).resolve_left (by simp))
      | hold =>
        rw [hr] at hr'
        rw [drive_arm_hold b k hr, drive_arm_hold b k hr', State.atHold_inRest]
      | raised c =>
        rw [hr] at hr'
        rw [drive_arm_raised b k hr, drive_arm_raised b k hr']

/-- A program line of the ISR is its first atomic step followed by the rest (30_encoding R87, 92_eei_decisions D17): the
step ends at a hold point from which the line goes on, or it is the whole of the line. -/
theorem drive_segment (l : List IsrOp) (b s : State) (h : .ret ∈ l) :
    (∃ a k, (segment b l s).kisr = .active (.arm a :: k) ∧ (segment b l s).inisr = true
        ∧ drive b l s = drive (segment b l s) (.arm a :: k) (segment b l s))
      ∨ drive b l s = segment b l s := by
  induction l generalizing b s with
  | nil => cases h
  | cons o k ih =>
    cases o with
    | ret => exact .inr rfl
    | pktdisOff => exact ih _ _ ((List.mem_cons.mp h).resolve_left (by simp))
    | dequeue => exact ih _ _ ((List.mem_cons.mp h).resolve_left (by simp))
    | arm a =>
      have hk : .ret ∈ k := (List.mem_cons.mp h).resolve_left (by simp)
      have hr' := ArmOp.run_inRest a s (.arm a :: k)
      rw [← State.atHold_eq] at hr'
      cases hr : a.run s with
      | raised c => exact .inr (by rw [segment_arm_raised b k hr, drive_arm_raised b k hr])
      | done u =>
        rw [hr] at hr'
        refine .inl ⟨a, k, ?_⟩
        rw [segment_arm b k (by simp [hr]), drive_arm_done b k hr, drive_arm_done _ k hr', drive_inRest _ k _ u hk,
          State.atHold_eq, State.atHold_inRest]
        exact ⟨rfl, rfl, rfl⟩
      | hold =>
        rw [hr] at hr'
        refine .inl ⟨a, k, ?_⟩
        rw [segment_arm b k (by simp [hr]), drive_arm_hold b k hr, drive_arm_hold _ k hr', State.atHold_eq,
          State.atHold_inRest]
        exact ⟨rfl, rfl, rfl⟩

/-! ## Segments of the ISR -/

/-- A rule of the ISR always answers a next state: what the plan and the rest lead to, or the state before with FAULT. -/
theorem runPlan_cases (before : State) (p : Plan) (rest : List IsrOp) :
    (∃ s1 ops, p = .ok (s1, ops) ∧ runPlan before p rest = .next (drive before (ops ++ rest) s1))
      ∨ ∃ c, p = .error c ∧ runPlan before p rest = .next (before.raise c) := by
  cases p with
  | error c => exact .inr ⟨c, rfl, rfl⟩
  | ok q => exact .inl ⟨q.1, q.2, rfl, rfl⟩

theorem segmentPlan_cases (before : State) (p : Plan) (rest : List IsrOp) :
    (∃ s1 ops, p = .ok (s1, ops) ∧ segmentPlan before p rest = .next (segment before (ops ++ rest) s1))
      ∨ ∃ c, p = .error c ∧ segmentPlan before p rest = .next (before.raise c) := by
  cases p with
  | error c => exact .inr ⟨c, rfl, rfl⟩
  | ok q => exact .inl ⟨q.1, q.2, rfl, rfl⟩

/-- Nothing refuses an invocation exactly when the entry condition holds (42_dispatcher R111). -/
theorem State.entryRefusal_none {s : State} : s.entryRefusal = none ↔ s.isrReady = true := by
  unfold State.entryRefusal State.isrReady
  cases s.inisr <;> cases s.gie <;> cases s.irq <;> simp

theorem isrInvoke_of_ready {plan : State → Plan} {s : State} (h : s.isrReady = true) :
    isrInvoke plan s = runPlan s (plan s.enterIsr) [.ret] := by simp [isrInvoke, State.entryRefusal_none.mpr h]

/-- An invocation that answers a next state started under the entry condition (42_dispatcher R111). -/
theorem isrInvoke_next {plan : State → Plan} {s t : State} (h : isrInvoke plan s = .next t) :
    s.isrReady = true ∧ runPlan s (plan s.enterIsr) [.ret] = .next t := by
  unfold isrInvoke at h
  split at h
  · cases h
  · next hn => exact ⟨State.entryRefusal_none.mp hn, h⟩

theorem isrRow_of_inactive {plan : State → Plan} {s : State} (h : s.kisr = .inactive) :
    isrRow plan s = isrInvoke plan s := by simp [isrRow, h]

theorem isrRow_of_active {plan : State → Plan} {s : State} {k : List IsrOp} (h : s.kisr = .active k) :
    isrRow plan s = runPlan s (plan s) k := by simp [isrRow, h]

/-- Entry and return leave a state outside the ISR as it was. -/
theorem leave_enter {s : State} (hk : s.kisr = .inactive) (hi : s.inisr = false) : s.enterIsr.leaveIsr = s := by
  cases s
  simp_all [State.enterIsr, State.leaveIsr]

end Sys2Proof.Machine
end

