-- ==== Sys2Proof/Laws/Bus.lean ====
section
/-! SUPPORT. Everything a bus event can do: one of five effects and an answer. -/

namespace Sys2Proof.Machine

/-- The room left in USTATQ, as the filter of 45_sie_bus_agent R145 asks for it. -/
theorem queueFull_eq_false {s : State} : s.queueFull = false ↔ s.ustatq.length < s.cfg.ustatDepth := by
  simp [State.queueFull]

/-- Everything `BUS.SETUP` can do. -/
theorem execBusSetup_cases (a : BitVec 7) (ep : BitVec 4) (p : SetupPkt) (s : State) :
    execBusSetup a ep p s = .next (s.answer .none)
      ∨ (a = s.addr ∧ ep = 0 ∧ s.pktdis = false ∧ s.bdt.ep0Out.own = .sie ∧ s.ustatq.length < s.cfg.ustatDepth
          ∧ execBusSetup a ep p s
            = .next ({ receive .ep0Out ⟨0, .out⟩ Pid.setup p.bytes s with pktdis := true }.answer .ack)) := by
  by_cases ha : a = s.addr
  · by_cases he : ep = 0
    · cases hp : s.pktdis with
      | true => left; simp [execBusSetup, busSetupStep, hp, ha, he]
      | false =>
        cases ho : s.bdt.ep0Out.own with
        | cpu => left; simp [execBusSetup, busSetupStep, hp, ha, he, State.bd, ho]
        | sie =>
          cases hq : s.queueFull with
          | true => left; simp [execBusSetup, busSetupStep, hp, ha, he, State.bd, ho, hq]
          | false =>
            right
            exact ⟨ha, he, rfl, rfl, queueFull_eq_false.mp hq,
              by simp [execBusSetup, busSetupStep, hp, ha, he, State.bd, ho, hq]⟩
    · left; simp only [execBusSetup, busSetupStep, ha, if_neg he, if_true]
  · left; simp [execBusSetup, ha]

/-- Everything `BUS.OUT` can do: nothing but an answer, a stall condition, or the completion of a reception. -/
theorem execBusOut_cases (a : BitVec 7) (ep : BitVec 4) (t : Bool) (d : List Byte) (s : State) :
    (∃ r, (r = .none ∨ r = .nak ∨ r = .ack) ∧ execBusOut a ep t d s = .next (s.answer r))
      ∨ (∃ sl, slotOf ep .out = some sl ∧ (s.bd sl).own = .sie ∧ (s.bd sl).stall = true ∧ s.pktdis = false
          ∧ execBusOut a ep t d s = .next ((stallHandshake ep s).answer .stall))
      ∨ ∃ sl, slotOf ep .out = some sl ∧ (s.bd sl).own = .sie ∧ (s.bd sl).stall = false ∧ s.pktdis = false
          ∧ s.ustatq.length < s.cfg.ustatDepth
          ∧ execBusOut a ep t d s = .next ((receive sl ⟨ep, .out⟩ Pid.out d s).answer .ack) := by
  by_cases ha : a = s.addr
  · cases hs : slotOf ep .out with
    | none => exact .inl ⟨.none, .inl rfl, by simp [execBusOut, ha, hs]⟩
    | some sl =>
      cases hp : s.pktdis with
      | true => exact .inl ⟨.nak, .inr (.inl rfl), by simp [execBusOut, ha, hs, hp]⟩
      | false =>
        cases ho : (s.bd sl).own with
        | cpu => exact .inl ⟨.nak, .inr (.inl rfl), by simp [execBusOut, busOutStep, ha, hs, hp, ho]⟩
        | sie =>
          cases hst : (s.bd sl).stall with
          | true => exact .inr (.inl ⟨sl, rfl, ho, hst, rfl, by simp [execBusOut, busOutStep, ha, hs, hp, ho, hst]⟩)
          | false =>
            cases htg : (s.cfg.toggleCheck && t != (s.bd sl).dts) with
            | true =>
              exact .inl ⟨.ack, .inr (.inr rfl), by
                simp only [execBusOut, busOutStep, ha, hs, hp, ho, hst, htg]; rfl⟩
            | false =>
              cases hq : s.queueFull with
              | true =>
                exact .inl ⟨.nak, .inr (.inl rfl), by
                  simp only [execBusOut, busOutStep, ha, hs, hp, ho, hst, htg, hq]; rfl⟩
              | false =>
                exact .inr (.inr ⟨sl, rfl, ho, hst, rfl, queueFull_eq_false.mp hq, by
                  simp only [execBusOut, busOutStep, ha, hs, hp, ho, hst, htg, hq]; rfl⟩)
  · exact .inl ⟨.none, .inl rfl, by simp [execBusOut, ha]⟩

/-- Everything `BUS.IN` can do: nothing but an answer, a stall condition, or the completion of a transmission. -/
theorem execBusIn_cases (a : BitVec 7) (ep : BitVec 4) (s : State) :
    (∃ r, (r = .none ∨ r = .nak) ∧ execBusIn a ep s = .next (s.answer r))
      ∨ (∃ sl, slotOf ep .inn = some sl ∧ (s.bd sl).own = .sie ∧ (s.bd sl).stall = true ∧ s.pktdis = false
          ∧ execBusIn a ep s = .next ((stallHandshake ep s).answer .stall))
      ∨ ∃ sl, slotOf ep .inn = some sl ∧ (s.bd sl).own = .sie ∧ (s.bd sl).stall = false ∧ s.pktdis = false
          ∧ s.ustatq.length < s.cfg.ustatDepth
          ∧ execBusIn a ep s
            = .next ((transmit sl ⟨ep, .inn⟩ s).answer
                (.data (s.bd sl).dts (memRead s.ram (s.bd sl).adr (s.bd sl).cnt))) := by
  by_cases ha : a = s.addr
  · cases hs : slotOf ep .inn with
    | none => exact .inl ⟨.none, .inl rfl, by simp [execBusIn, ha, hs]⟩
    | some sl =>
      cases hp : s.pktdis with
      | true => exact .inl ⟨.nak, .inr rfl, by simp [execBusIn, ha, hs, hp]⟩
      | false =>
        cases ho : (s.bd sl).own with
        | cpu => exact .inl ⟨.nak, .inr rfl, by simp [execBusIn, busInStep, ha, hs, hp, ho]⟩
        | sie =>
          cases hst : (s.bd sl).stall with
          | true => exact .inr (.inl ⟨sl, rfl, ho, hst, rfl, by simp [execBusIn, busInStep, ha, hs, hp, ho, hst]⟩)
          | false =>
            cases hq : s.queueFull with
            | true => exact .inl ⟨.nak, .inr rfl, by simp [execBusIn, busInStep, ha, hs, hp, ho, hst, hq]⟩
            | false =>
              exact .inr (.inr ⟨sl, rfl, ho, hst, rfl, queueFull_eq_false.mp hq,
                by simp [execBusIn, busInStep, ha, hs, hp, ho, hst, hq]⟩)
  · exact .inl ⟨.none, .inl rfl, by simp [execBusIn, ha]⟩

end Sys2Proof.Machine
end

