-- ==== Sys2Proof/Laws/ByteStream.lean ====
section
/-! SUPPORT. What the receive callback can change, and everything one atomic step of FG can do. -/

namespace Sys2Proof.Machine

/-! ## The receive ring -/

/-- Appending received bytes writes RXBUF, WR and OCC alone. -/
theorem ringAppend_frame : ∀ (d : List Byte) (s : State),
    (ringAppend d s).1
      = { s with rxbuf := (ringAppend d s).1.rxbuf, wr := (ringAppend d s).1.wr, occ := (ringAppend d s).1.occ }
  | [], _ => rfl
  | b :: d, s => by
    by_cases h : s.occ.toNat < s.cfg.rxCap
    · rw [ringAppend, if_pos h]
      exact ringAppend_frame d (ringPush b s)
    · rw [ringAppend, if_neg h]
      exact ringAppend_frame d s

/-- The ring keeps its number of places. -/
theorem ringAppend_length : ∀ (d : List Byte) (s : State), (ringAppend d s).1.rxbuf.length = s.rxbuf.length
  | [], _ => rfl
  | b :: d, s => by
    by_cases h : s.occ.toNat < s.cfg.rxCap
    · rw [ringAppend, if_pos h, ringAppend_length d (ringPush b s)]
      simp [ringPush]
    · rw [ringAppend, if_neg h]
      exact ringAppend_length d s

/-- A full ring drops every byte. -/
theorem ringAppend_full : ∀ (d : List Byte) {s : State}, s.cfg.rxCap ≤ s.occ.toNat → ringAppend d s = (s, d.length)
  | [], _, _ => rfl
  | b :: d, s, h => by
    rw [ringAppend, if_neg (Nat.not_lt.mpr h), ringAppend_full d h]
    rfl

/-- The receive callback's own writes: RXBUF, WR, OCC, DIAG and the inverted toggle of the data endpoint. -/
theorem rxStore_frame (d : List Byte) (s : State) :
    rxStore d s
      = { s with
          rxbuf := (rxStore d s).rxbuf, wr := (rxStore d s).wr, occ := (rxStore d s).occ, diag := (rxStore d s).diag,
          outTog := { s.outTog with e2 := !s.outTog.e2 } } := by
  unfold rxStore emitOverflow
  have h := ringAppend_frame d s
  generalize ringAppend d s = q at h ⊢
  obtain ⟨t, k⟩ := q
  dsimp only at h ⊢
  rw [h]
  split <;> rfl

/-! ## FG -/

/-- FG's chunk arm moves exactly as `arm_in` completes. -/
theorem fgWrite3_moved {src : List Byte} {off n : Nat} {s t : State} (h : fgWrite3 src off n s = .moved t) :
    ∃ u, armInRun Config.epData (some (chunk src off n)) n (s.inTog.get Config.epData) s = .done u
      ∧ t = { u with kfg := .write4 src off n } := by
  unfold fgWrite3 at h
  split at h
  · next u hu => exact ⟨u, hu, (FgRes.moved.inj h).symm⟩
  · cases h
  · cases h

theorem fgArm_moved {a : ArmOp} {s t : State} (h : fgArm a s = .moved t) :
    ∃ u, a.run s = .done u ∧ t = { u with kfg := .idle } := by
  unfold fgArm at h
  split at h
  · next u hu => exact ⟨u, hu, (FgRes.moved.inj h).symm⟩
  · cases h
  · cases h

/-- Everything a moving step of FG can do (44_byte_stream R135, R137, 40_bdt_arming R93). -/
theorem fgStep_moved {s t : State} (h : fgStep s = .moved t) :
    (s.kfg = .read1 ∧ s.occ ≠ 0 ∧ t = { s with kfg := .read2 })
      ∨ (s.kfg = .read2 ∧ t = { s with kfg := .read3 (s.rxbuf.getD s.rd 0) })
      ∨ (∃ v, s.kfg = .read3 v ∧ t = { s with gie := false, kfg := .read4 v })
      ∨ (∃ v, s.kfg = .read4 v
          ∧ t = { s with rd := (s.rd + 1) % s.cfg.rxCap, occ := s.occ - 1, kfg := .read5 v })
      ∨ (∃ v, s.kfg = .read5 v ∧ t = { s with gie := true, kfg := .read6 v })
      ∨ (∃ v, s.kfg = .read6 v ∧ t = { s with returned := s.returned ++ [v], kfg := .idle })
      ∨ (∃ src off, s.kfg = .write1 src off ∧ s.txReady = true ∧ t = { s with kfg := .write2 src off })
      ∨ (∃ src off, s.kfg = .write2 src off
          ∧ t = { s with txReady := false, kfg := .write3 src off (chunkLen src.length off) })
      ∨ (∃ src off n u, s.kfg = .write3 src off n
          ∧ armInRun Config.epData (some (chunk src off n)) n (s.inTog.get Config.epData) s = .done u
          ∧ t = { u with kfg := .write4 src off n })
      ∨ (∃ src off n, s.kfg = .write4 src off n
          ∧ t = { s with inTog := { s.inTog with e2 := !s.inTog.e2 }, kfg := writeFrom src (off + n) })
      ∨ ∃ a u, s.kfg = .arm a ∧ a.run s = .done u ∧ t = { u with kfg := .idle } := by
  unfold fgStep at h
  split at h
  · cases h
  · next hk =>
    unfold fgRead1 at h
    split at h
    · cases h
    · next ho => exact .inl ⟨hk, ho, (FgRes.moved.inj h).symm⟩
  · next hk => exact .inr (.inl ⟨hk, (FgRes.moved.inj h).symm⟩)
  · next v hk => exact .inr (.inr (.inl ⟨v, hk, (FgRes.moved.inj h).symm⟩))
  · next v hk => exact .inr (.inr (.inr (.inl ⟨v, hk, (FgRes.moved.inj h).symm⟩)))
  · next v hk => exact .inr (.inr (.inr (.inr (.inl ⟨v, hk, (FgRes.moved.inj h).symm⟩))))
  · next v hk => exact .inr (.inr (.inr (.inr (.inr (.inl ⟨v, hk, (FgRes.moved.inj h).symm⟩)))))
  · next src off hk =>
    unfold fgWrite1 at h
    split at h
    · next ht => exact .inr (.inr (.inr (.inr (.inr (.inr (.inl ⟨src, off, hk, ht, (FgRes.moved.inj h).symm⟩))))))
    · cases h
  · next src off hk =>
    exact .inr (.inr (.inr (.inr (.inr (.inr (.inr (.inl ⟨src, off, hk, (FgRes.moved.inj h).symm⟩)))))))
  · next src off n hk =>
    obtain ⟨u, hu, ht⟩ := fgWrite3_moved h
    exact .inr (.inr (.inr (.inr (.inr (.inr (.inr (.inr (.inl ⟨src, off, n, u, hk, hu, ht⟩))))))))
  · next src off n hk =>
    exact .inr (.inr (.inr (.inr (.inr (.inr (.inr (.inr (.inr (.inl ⟨src, off, n, hk, (FgRes.moved.inj h).symm⟩)))))))))
  · next a hk =>
    obtain ⟨u, hu, ht⟩ := fgArm_moved h
    exact .inr (.inr (.inr (.inr (.inr (.inr (.inr (.inr (.inr (.inr ⟨a, u, hk, hu, ht⟩)))))))))

/-- A step of FG always answers a next state: it moves, it holds with nothing changed, or it records a fault. -/
theorem fgOutcome_cases (s : State) :
    (∃ t, fgStep s = .moved t ∧ fgOutcome s = .next t)
      ∨ (fgStep s = .held ∧ fgOutcome s = .next s)
      ∨ ∃ c, fgStep s = .raised c ∧ fgOutcome s = .next (s.raise c) := by
  unfold fgOutcome
  cases fgStep s with
  | moved t => exact .inl ⟨t, rfl, rfl⟩
  | held => exact .inr (.inl ⟨rfl, rfl⟩)
  | raised c => exact .inr (.inr ⟨c, rfl, rfl⟩)

end Sys2Proof.Machine
end

