-- ==== Sys2Proof/Laws/Encoding.lean ====
section
/-! SUPPORT. The bit fields of the formats: what each composed byte or packet reads back as, field by field. -/

namespace Sys2Proof

/-! ## Bytes and 16-bit fields (20_memory R50) -/

@[simp] theorem loByte_le16 (lo hi : Byte) : loByte (le16 lo hi) = lo := by
  apply BitVec.eq_of_getLsbD_eq
  intro i h
  simp only [loByte, le16, BitVec.getLsbD_extractLsb', h, decide_true, Bool.true_and, Nat.zero_add]
  rw [BitVec.getLsbD_append, if_pos h]

@[simp] theorem hiByte_le16 (lo hi : Byte) : hiByte (le16 lo hi) = hi := by
  apply BitVec.eq_of_getLsbD_eq
  intro i h
  simp only [hiByte, le16, BitVec.getLsbD_extractLsb', h, decide_true, Bool.true_and]
  rw [BitVec.getLsbD_append, if_neg (by omega), Nat.add_sub_cancel_left]

@[simp] theorem le16_bytes (w : BitVec 16) : le16 (loByte w) (hiByte w) = w := by
  apply BitVec.eq_of_getLsbD_eq
  intro i h
  simp only [le16, loByte, hiByte]
  rw [BitVec.getLsbD_append, BitVec.getLsbD_extractLsb', BitVec.getLsbD_extractLsb']
  by_cases hi : i < 8
  · simp [hi]
  · simp [hi, show i - 8 < 8 by omega, show 8 + (i - 8) = i by omega]

@[simp] theorem loNibble_append (a b : BitVec 4) : loNibble (a ++ b : BitVec 8) = b := by
  revert a b
  decide

@[simp] theorem hiNibble_append (a b : BitVec 4) : hiNibble (a ++ b : BitVec 8) = a := by
  revert a b
  decide

@[simp] theorem loNibble_nibbleByte (n : BitVec 4) : loNibble (nibbleByte n) = n := loNibble_append 0 n

@[simp] theorem hiNibble_nibbleByte (n : BitVec 4) : hiNibble (nibbleByte n) = 0 := hiNibble_append 0 n

@[simp] theorem loNibble_outDoneByte (e p : BitVec 4) : loNibble (outDoneByte e p) = p := loNibble_append e p

@[simp] theorem hiNibble_outDoneByte (e p : BitVec 4) : hiNibble (outDoneByte e p) = e := hiNibble_append e p

/-! ## Operand bytes -/

@[simp] theorem asBit_bitByte (f : Format) (b : Bool) : asBit f (bitByte b) = .ok b := by cases b <;> rfl

@[simp] theorem asAddress_addressByte (a : BitVec 7) : asAddress (addressByte a) = .ok a := by
  revert a
  decide

@[simp] theorem asEndpoint_nibbleByte (n : BitVec 4) : asEndpoint (nibbleByte n) = .ok n := by
  simp [asEndpoint]

@[simp] theorem asErrKind_byte (k : ErrKind) : asErrKind k.byte = .ok k := by cases k <;> rfl

@[simp] theorem asPayload_rec (f : Format) (d : Option (List Byte)) : asPayload f (payloadRec d) = .ok d := by
  cases d <;> simp [asPayload, payloadRec, asBit]

theorem asPacket_of_le {d : List Byte} (h : d.length ≤ Config.maxP) : asPacket d = .ok d := by simp [asPacket, h]

/-! ## The SETUP packet (30_encoding R65, R66) -/

theorem reqByte_fields (d : BitVec 1) (ty : BitVec 2) (r : BitVec 5) :
    (d ++ ty ++ r : BitVec 8).extractLsb' 7 1 = d ∧ (d ++ ty ++ r : BitVec 8).extractLsb' 5 2 = ty
      ∧ (d ++ ty ++ r : BitVec 8).extractLsb' 0 5 = r := by
  revert d ty r
  decide

namespace SetupPkt

variable (h : ReqHead) (ty : BitVec 2) (bRequest : Byte) (wValue wIndex wLength : BitVec 16)

@[simp] theorem make_head : (make h ty bRequest wValue wIndex wLength).head = h := by
  simp [make, head, reqByte_fields h.direction ty h.recipient]

@[simp] theorem make_reqType : (make h ty bRequest wValue wIndex wLength).reqType = ty :=
  (reqByte_fields h.direction ty h.recipient).2.1

@[simp] theorem make_bRequest : (make h ty bRequest wValue wIndex wLength).bRequest = bRequest := rfl

@[simp] theorem make_wValue : (make h ty bRequest wValue wIndex wLength).wValue = wValue := le16_bytes wValue

@[simp] theorem make_wIndex : (make h ty bRequest wValue wIndex wLength).wIndex = wIndex := le16_bytes wIndex

@[simp] theorem make_wLength : (make h ty bRequest wValue wIndex wLength).wLength = wLength := le16_bytes wLength

@[simp] theorem make_p2 : (make h ty bRequest wValue wIndex wLength).p2 = loByte wValue := rfl

@[simp] theorem make_p3 : (make h ty bRequest wValue wIndex wLength).p3 = hiByte wValue := rfl

end SetupPkt

/-- Decoding the eight bytes of a packet is selecting its row. -/
@[simp] theorem decodeSetupRec_bytes (p : SetupPkt) : decodeSetupRec p.bytes = .ok (decodeSetup p) := rfl

/-! ## UIR and USTAT (30_encoding R74, R75) -/

@[simp] theorem uirByte_rstf (r e t s : Bool) : (uirByte r e t s)[0] = r := by
  revert r e t s
  decide

@[simp] theorem uirByte_errf (r e t s : Bool) : (uirByte r e t s)[1] = e := by
  revert r e t s
  decide

@[simp] theorem uirByte_trnf (r e t s : Bool) : (uirByte r e t s)[3] = t := by
  revert r e t s
  decide

@[simp] theorem uirByte_stallf (r e t s : Bool) : (uirByte r e t s)[5] = s := by
  revert r e t s
  decide

@[simp] theorem ustatByte_dir (d : Dir) (endp : BitVec 4) :
    (if (ustatByte d endp)[2] = true then Dir.inn else Dir.out) = d := by
  cases d <;> revert endp <;> decide

@[simp] theorem ustatByte_endp (d : Dir) (endp : BitVec 4) : (ustatByte d endp).extractLsb' 3 4 = endp := by
  cases d <;> revert endp <;> decide

end Sys2Proof
end

