-- ==== Sys2Proof/Laws/Irq.lean ====
section
/-! SUPPORT. What the dispatcher's handlers write themselves, and the descriptors the endpoint table enables. -/

namespace Sys2Proof.Machine

/-- The descriptors that exist are those of the enabled directions (10_state R20, R27). -/
theorem slotOf_isSome (ep : BitVec 4) (dir : Dir) : (slotOf ep dir).isSome = dirEnabled ep dir := by
  cases dir <;> revert ep <;> decide

/-- Without a payload `process` does nothing (43_class_requests R125). -/
@[simp] theorem process_none (b : Byte) (s : State) : process b none s = s := by
  unfold process decodeClassReq
  split
  · rfl
  · split <;> rfl

/-- `process` writes LINECODING alone (43_class_requests R125). -/
theorem process_frame (b : Byte) (payload : Option (List Byte)) (s : State) :
    process b payload s = { s with lineCoding := (process b payload s).lineCoding } := by
  unfold process decodeClassReq
  split
  · simp only [classReqEffect, processSetLineCoding]
    split <;> rfl
  · split <;> rfl

/-- Everything an IN completion does (42_dispatcher R117). -/
theorem inComplete_cases (ep : BitVec 4) (s : State) :
    (∃ a, s.pendAddr = some a ∧ inComplete ep s = { s with addr := a, pendAddr := none })
      ∨ (s.pendAddr = none ∧ ep = 2 ∧ inComplete ep s = { s with txReady := true })
      ∨ (s.pendAddr = none ∧ ep ≠ 2 ∧ inComplete ep s = s) := by
  cases h : s.pendAddr with
  | some a => exact .inl ⟨a, rfl, by simp [inComplete, h]⟩
  | none =>
    by_cases he : ep = 2
    · subst he
      exact .inr (.inl ⟨rfl, rfl, by
        have hc : inCallback 2 = some .txDone := by decide
        simp only [inComplete, h, hc]
        simp only [txDone, h]⟩)
    · have hc : inCallback ep = none := by revert ep; decide
      exact .inr (.inr ⟨rfl, he, by simp only [inComplete, h, hc]⟩)

/-- Everything the stall release does (42_dispatcher R115): for each endpoint whose stall condition is set, its IN
descriptor goes to the CPU and the condition is cleared. -/
theorem onStall_eq (s : State) :
    onStall s
      = { s with
          stallf := false,
          epStall := ⟨false, false, false⟩,
          bdt := { s.bdt with
            ep0In := if s.epStall.e0 then releasedStall s.bdt.ep0In else s.bdt.ep0In,
            ep1In := if s.epStall.e1 then releasedStall s.bdt.ep1In else s.bdt.ep1In,
            ep2In := if s.epStall.e2 then releasedStall s.bdt.ep2In else s.bdt.ep2In } } := by
  obtain ⟨cfg, ram, bdt, outTog, inTog, ⟨e0, e1, e2⟩⟩ := s
  cases e0 <;> cases e1 <;> cases e2 <;> rfl

end Sys2Proof.Machine
end

