-- ==== Sys2Proof/Laws/PerInstr.lean ====
section
/-! SUPPORT. The family RoundTrip: decoding the record of a well-formed operation gives the operation back, one lemma for
each constructor of `Instr`. -/

namespace Sys2Proof.Laws.RoundTrip

/-- The decoder reads the encoder's record of a well-formed operation as that operation. -/
def Statement (i : Instr) : Prop := i.wellFormed = true → decode i.format (encode i) = .ok i

/-! ## SETUP64 -/

theorem getDescriptorDevice (h : ReqHead) (index : Byte) (wIndex wLength : BitVec 16) :
    Statement (.getDescriptorDevice h index wIndex wLength) := fun _ => by
  simp [Instr.format, encode, decode, decodeSetup]

theorem getDescriptorConfiguration (h : ReqHead) (index : Byte) (wIndex wLength : BitVec 16) :
    Statement (.getDescriptorConfiguration h index wIndex wLength) := fun _ => by
  simp [Instr.format, encode, decode, decodeSetup]

theorem getDescriptorString (h : ReqHead) (index : Byte) (wIndex wLength : BitVec 16) :
    Statement (.getDescriptorString h index wIndex wLength) := fun _ => by
  simp [Instr.format, encode, decode, decodeSetup]

theorem getDescriptorDeviceQualifier (h : ReqHead) (index : Byte) (wIndex wLength : BitVec 16) :
    Statement (.getDescriptorDeviceQualifier h index wIndex wLength) := fun _ => by
  simp [Instr.format, encode, decode, decodeSetup]

theorem getDescriptorOther (h : ReqHead) (dtype index : Byte) (wIndex wLength : BitVec 16) :
    Statement (.getDescriptorOther h dtype index wIndex wLength) := fun hw => by
  simp [Instr.wellFormed] at hw
  simp [Instr.format, encode, decode, decodeSetup, hw]

theorem setAddress (h : ReqHead) (wValue wIndex wLength : BitVec 16) : Statement (.setAddress h wValue wIndex wLength) :=
  fun _ => by simp [Instr.format, encode, decode, decodeSetup]

theorem setConfiguration (h : ReqHead) (wValue wIndex wLength : BitVec 16) :
    Statement (.setConfiguration h wValue wIndex wLength) := fun _ => by
  simp [Instr.format, encode, decode, decodeSetup]

theorem stdOther (h : ReqHead) (bRequest : Byte) (wValue wIndex wLength : BitVec 16) :
    Statement (.stdOther h bRequest wValue wIndex wLength) := fun hw => by
  simp [Instr.wellFormed] at hw
  simp [Instr.format, encode, decode, decodeSetup, hw]

theorem classNodata (h : ReqHead) (bRequest : Byte) (wValue wIndex : BitVec 16) :
    Statement (.classNodata h bRequest wValue wIndex) := fun _ => by
  simp [Instr.format, encode, decode, decodeSetup]

theorem classData (h : ReqHead) (bRequest : Byte) (wValue wIndex wLength : BitVec 16) :
    Statement (.classData h bRequest wValue wIndex wLength) := fun hw => by
  simp [Instr.wellFormed] at hw
  simp [Instr.format, encode, decode, decodeSetup, hw]

theorem vendorNodata (h : ReqHead) (bRequest : Byte) (wValue wIndex : BitVec 16) :
    Statement (.vendorNodata h bRequest wValue wIndex) := fun _ => by
  simp [Instr.format, encode, decode, decodeSetup]

theorem vendorData (h : ReqHead) (bRequest : Byte) (wValue wIndex wLength : BitVec 16) :
    Statement (.vendorData h bRequest wValue wIndex wLength) := fun hw => by
  simp [Instr.wellFormed] at hw
  simp [Instr.format, encode, decode, decodeSetup, hw]

theorem reservedType (h : ReqHead) (bRequest : Byte) (wValue wIndex wLength : BitVec 16) :
    Statement (.reservedType h bRequest wValue wIndex wLength) := fun _ => by
  simp [Instr.format, encode, decode, decodeSetup]

/-! ## CLASSREQ8 -/

/-- A record of a class request with an acceptable payload selects its row. -/
theorem classRec_eq (c : Byte) {payload : Option (List Byte)} (h : payloadOk payload = true) :
    decodeClassRec (c :: payloadRec payload) = .ok (decodeClassReq c payload) := by
  cases payload with
  | none => simp [decodeClassRec]
  | some d => simp [decodeClassRec, asPacket_of_le (of_decide_eq_true h)]

theorem clsSetLineCoding (payload : Option (List Byte)) : Statement (.clsSetLineCoding payload) := fun hw => by
  simp [Instr.format, encode, decode, classRec_eq _ hw, decodeClassReq]

theorem clsSetControlLineState (payload : Option (List Byte)) : Statement (.clsSetControlLineState payload) := fun hw => by
  simp [Instr.format, encode, decode, classRec_eq _ hw, decodeClassReq]

theorem clsOther (bRequest : Byte) (payload : Option (List Byte)) : Statement (.clsOther bRequest payload) := fun hw => by
  simp [Instr.wellFormed] at hw
  simp [Instr.format, encode, decode, classRec_eq _ hw.2, decodeClassReq, hw]

/-! ## IRQ16 -/

theorem dispatchReset (errf stallf trnf : Bool) (dir : Dir) (endp : BitVec 4) :
    Statement (.dispatchReset errf stallf trnf dir endp) := fun _ => by
  simp [Instr.format, encode, decode, decodeIrqRec, decodeIrq]

theorem dispatchError (stallf trnf : Bool) (dir : Dir) (endp : BitVec 4) :
    Statement (.dispatchError stallf trnf dir endp) := fun _ => by
  simp [Instr.format, encode, decode, decodeIrqRec, decodeIrq]

theorem dispatchStall (trnf : Bool) (dir : Dir) (endp : BitVec 4) : Statement (.dispatchStall trnf dir endp) := fun _ => by
  simp [Instr.format, encode, decode, decodeIrqRec, decodeIrq]

theorem dispatchTrnIn (endp : BitVec 4) : Statement (.dispatchTrnIn endp) := fun _ => by
  simp [Instr.format, encode, decode, decodeIrqRec, decodeIrq]

theorem dispatchTrnOut (endp : BitVec 4) : Statement (.dispatchTrnOut endp) := fun _ => by
  simp [Instr.format, encode, decode, decodeIrqRec, decodeIrq]

/-! ## OUTDONE8 -/

theorem ep0Setup : Statement .ep0Setup := fun _ => by decide

theorem epxSetup (endp : BitVec 4) : Statement (.epxSetup endp) := fun hw => by
  simp [Instr.wellFormed] at hw
  simp [Instr.format, encode, decode, decodeOutDoneRec, decodeOutDone, hw]

theorem ep0TokenOut : Statement .ep0TokenOut := fun _ => by decide

theorem dataTokenOut : Statement .dataTokenOut := fun _ => by decide

theorem epxTokenOut (endp : BitVec 4) : Statement (.epxTokenOut endp) := fun hw => by
  simp [Instr.wellFormed] at hw
  simp [Instr.format, encode, decode, decodeOutDoneRec, decodeOutDone, hw, Pid.out, Pid.setup]

theorem outAck (endp : BitVec 4) : Statement (.outAck endp) := fun _ => by
  simp [Instr.format, encode, decode, decodeOutDoneRec, decodeOutDone, Pid.out, Pid.setup, Pid.ack]

theorem outOtherPid (endp pid : BitVec 4) : Statement (.outOtherPid endp pid) := fun hw => by
  simp [Instr.wellFormed] at hw
  obtain ⟨⟨h1, h2⟩, h3⟩ := hw
  simp [Instr.format, encode, decode, decodeOutDoneRec, decodeOutDone, Pid.out, Pid.ack, Pid.setup, h1, h2, h3]

/-! ## PID4 -/

theorem pidOut : Statement .pidOut := fun _ => by decide
theorem pidIn : Statement .pidIn := fun _ => by decide
theorem pidSof : Statement .pidSof := fun _ => by decide
theorem pidSetup : Statement .pidSetup := fun _ => by decide
theorem pidData0 : Statement .pidData0 := fun _ => by decide
theorem pidData1 : Statement .pidData1 := fun _ => by decide
theorem pidAck : Statement .pidAck := fun _ => by decide
theorem pidNak : Statement .pidNak := fun _ => by decide
theorem pidStall : Statement .pidStall := fun _ => by decide

/-! ## CALL8 -/

theorem init : Statement .init := fun _ => by decide

theorem readCharacter : Statement .readCharacter := fun _ => by decide

theorem writeCharacter (b : Byte) : Statement (.writeCharacter b) := fun _ => by
  simp [Instr.format, encode, decode, decodeCallRec, decodeWriteCharacter]

theorem writeString (s : List Byte) : Statement (.writeString s) := fun _ => by
  simp [Instr.format, encode, decode, decodeCallRec]

theorem armOut (ep : BitVec 4) (t : Bool) : Statement (.armOut ep t) := fun _ => by
  simp [Instr.format, encode, decode, decodeCallRec, decodeArmOut]

theorem armIn (ep : BitVec 4) (data : Option (List Byte)) (len : BitVec 16) (t : Bool) :
    Statement (.armIn ep data len t) := fun _ => by
  simp [Instr.format, encode, decode, decodeCallRec, decodeArmIn]

theorem stallIn (ep : BitVec 4) : Statement (.stallIn ep) := fun _ => by
  simp [Instr.format, encode, decode, decodeCallRec, decodeStallIn]

theorem rxCallback (d : List Byte) : Statement (.rxCallback d) := fun hw => by
  simp [Instr.format, encode, decode, decodeCallRec, decodeRxCallback, asPacket_of_le (of_decide_eq_true hw)]

theorem txDoneCallback : Statement .txDoneCallback := fun _ => by decide

/-! ## BUSEV8 -/

theorem busSetup (a : BitVec 7) (ep : BitVec 4) (p : SetupPkt) : Statement (.busSetup a ep p) := fun _ => by
  simp [Instr.format, encode, decode, decodeBusRec, decodeBusSetup, SetupPkt.bytes]

theorem busOut (a : BitVec 7) (ep : BitVec 4) (t : Bool) (d : List Byte) : Statement (.busOut a ep t d) := fun hw => by
  simp [Instr.format, encode, decode, decodeBusRec, decodeBusOut, asPacket_of_le (of_decide_eq_true hw)]

theorem busIn (a : BitVec 7) (ep : BitVec 4) : Statement (.busIn a ep) := fun _ => by
  simp [Instr.format, encode, decode, decodeBusRec, decodeBusIn]

theorem busReset : Statement .busReset := fun _ => by decide

theorem busError (k : ErrKind) : Statement (.busError k) := fun _ => by
  simp [Instr.format, encode, decode, decodeBusRec, decodeBusError]

end Sys2Proof.Laws.RoundTrip
end

