-- ==== Sys2Proof/Laws/Sched.lean ====
section
/-! SUPPORT. Everything an FG line of a program can do. -/

namespace Sys2Proof.Machine

/-- A line FG.READ, FG.WRITE or FG.PUTC goes on exactly as its call does, and the program then goes on with the rest, or
with FG.RUN while the operation has not returned (30_encoding R87). -/
theorem fgCallLine_next {call : State → Host.Outcome State Fault Refusal} {rest : List Line} {s t : State} :
    fgCallLine call rest s = .next t
      ↔ ∃ u, call s = .next u ∧ t = u.setFeed (if u.kfg = .idle then rest else .fgRun :: rest) := by
  unfold fgCallLine
  split <;> simp_all [eq_comm]

/-- A step of FG.RUN is one step of FG that leaves the line in place or takes it out, or takes the line out at a hold, or
raises a fault (30_encoding R87). -/
theorem fgRunLine_next {rest : List Line} {s t : State} (h : fgRunLine rest s = .next t) :
    (s.inisr = false ∧ s.isrReady = false ∧ s.kfg ≠ .idle)
      ∧ ((∃ u, fgStep s = .moved u
            ∧ t = if u.kfg = .idle ∨ u.isrReady = true then u.setFeed rest else u)
        ∨ (fgStep s = .held ∧ t = s.setFeed rest)
        ∨ ∃ c, fgStep s = .raised c ∧ t = s.raise c) := by
  unfold fgRunLine at h
  split at h
  · cases h
  split at h
  · cases h
  split at h
  · cases h
  refine ⟨⟨by simp_all, by simp_all, ‹_›⟩, ?_⟩
  split at h
  · rename_i u hu
    refine .inl ⟨u, hu, ?_⟩
    split at h <;> rename_i hc <;> cases h
    · rw [if_pos hc]
    · rw [if_neg hc]
  · cases h; exact .inr (.inl ⟨‹_›, rfl⟩)
  · cases h; exact .inr (.inr ⟨_, ‹_›, rfl⟩)

end Sys2Proof.Machine
end

