-- ==== Sys2Proof/Tests/Slice0.lean ====
section
/-! SUPPORT. The model's own tests. Expected results come from the vectors of 95_test_vectors (named V<family>.<n>) or are
written out from the rules named. First the well-formedness checks, then decoding, then one step of each operation, then
for each statement with hypotheses states and operands that meet them. -/

namespace Sys2Proof.Tests

open Sys2Proof.Machine Sys2Proof.Spec0

/-! ## Small states and observations -/

/-- An observation of the state an outcome leads to. -/
def see {α : Type} (o : Host.Outcome State Fault Refusal) (f : State → α) : Option α :=
  match o with
  | .next t => some (f t)
  | .fault _ | .refused _ => none

/-- Why an outcome is refused. -/
def refusalOf (o : Host.Outcome State Fault Refusal) : Option Refusal :=
  match o with
  | .refused r => some r
  | .next _ | .fault _ => none

def isNextWith (o : Host.Outcome State Fault Refusal) (p : State → Bool) : Bool :=
  match o with
  | .next t => p t
  | .fault _ | .refused _ => false

theorem exists_next {o : Host.Outcome State Fault Refusal} {P : State → Prop} [DecidablePred P]
    (h : isNextWith o (fun t => decide (P t)) = true) : ∃ t, o = .next t ∧ P t := by
  cases o with
  | next t => exact ⟨t, rfl, of_decide_eq_true h⟩
  | fault c => cases h
  | refused r => cases h

/-- The launch state of 95_test_vectors section 0. -/
def S0 : State := State.reset

/-- S0 with the EP0 OUT descriptor back with the CPU and its completion waiting. -/
def taken : State :=
  { S0 with bdt := { S0.bdt with ep0Out := { S0.bdt.ep0Out with own := .cpu } }, ustatq := [⟨0, .out⟩] }

/-- `taken`, and EP0 IN still armed. -/
def heldIn : State := { taken with bdt := { taken.bdt with ep0In := { taken.bdt.ep0In with own := .sie } } }

/-- A SETUP packet has been received (45_sie_bus_agent R147). -/
def gotSetup (d : List Byte) : State :=
  { taken with
    ram := memWrite [] 0x0500 d,
    bdt := { taken.bdt with ep0Out := { taken.bdt.ep0Out with cnt := 8, pid := 0b1101, statBy := .sie } },
    pktdis := true, ustatq := [⟨0, .out⟩] }

/-- An OUT packet has been received on endpoint 0 (45_sie_bus_agent R149). -/
def gotEp0 (d : List Byte) (c : Ctrl) : State :=
  { taken with
    ram := memWrite [] 0x0500 d,
    bdt := { taken.bdt with ep0Out := { taken.bdt.ep0Out with cnt := d.length, pid := 0b0001, statBy := .sie } },
    ctrl := c, ustatq := [⟨0, .out⟩] }

/-- An OUT packet has been received on the data endpoint. -/
def gotData (d : List Byte) : State :=
  { S0 with
    ram := memWrite [] 0x05C0 d,
    bdt := { S0.bdt with
      ep2Out := { S0.bdt.ep2Out with cnt := d.length, pid := 0b0001, own := .cpu, statBy := .sie } },
    ustatq := [⟨2, .out⟩] }

/-- S0 with bytes in the ring from place 0. -/
def ringed (d : List Byte) : State :=
  { S0 with rxbuf := d ++ List.replicate (8 - d.length) 0, wr := d.length % 8, occ := BitVec.ofNat 8 d.length }

/-- S0 with EP2 IN armed with these bytes. -/
def armedData (d : List Byte) (t : Bool) : State :=
  { S0 with
    ram := memWrite [] 0x0600 d,
    bdt := { S0.bdt with ep2In := { S0.bdt.ep2In with own := .sie, cnt := d.length, dts := t } }, txReady := false }

/-- Inside an invocation of which the return alone is left. -/
def inIsr (s : State) : State := { s with inisr := true, kisr := .active [.ret] }

/-- A request head: direction 0, recipient 0. -/
def h0 : ReqHead := ⟨0, 0⟩

/-! ## Well-formedness: a term each check refuses (30_encoding R67 to R69, R83, R84; 44_byte_stream R131; R155) -/

theorem test_wf_other_device : Instr.wellFormed (.getDescriptorOther h0 0x01 0 0 0) = false := by decide
theorem test_wf_other_configuration : Instr.wellFormed (.getDescriptorOther h0 0x02 0 0 0) = false := by decide
theorem test_wf_other_string : Instr.wellFormed (.getDescriptorOther h0 0x03 0 0 0) = false := by decide
theorem test_wf_other_qualifier : Instr.wellFormed (.getDescriptorOther h0 0x06 0 0 0) = false := by decide
theorem test_wf_std_set_address : Instr.wellFormed (.stdOther h0 0x05 0 0 0) = false := by decide
theorem test_wf_std_get_descriptor : Instr.wellFormed (.stdOther h0 0x06 0 0 0) = false := by decide
theorem test_wf_std_set_configuration : Instr.wellFormed (.stdOther h0 0x09 0 0 0) = false := by decide
theorem test_wf_class_data_without_length : Instr.wellFormed (.classData h0 0x20 0 0 0) = false := by decide
theorem test_wf_vendor_data_without_length : Instr.wellFormed (.vendorData h0 0x20 0 0 0) = false := by decide
theorem test_wf_line_coding_too_long :
    Instr.wellFormed (.clsSetLineCoding (some (List.replicate 65 0))) = false := by decide
theorem test_wf_line_state_too_long :
    Instr.wellFormed (.clsSetControlLineState (some (List.replicate 65 0))) = false := by decide
theorem test_wf_cls_other_is_line_coding : Instr.wellFormed (.clsOther 0x20 none) = false := by decide
theorem test_wf_cls_other_is_line_state : Instr.wellFormed (.clsOther 0x22 none) = false := by decide
theorem test_wf_cls_other_too_long : Instr.wellFormed (.clsOther 0 (some (List.replicate 65 0))) = false := by decide
theorem test_wf_epx_setup_ep0 : Instr.wellFormed (.epxSetup 0) = false := by decide
theorem test_wf_epx_token_out_ep0 : Instr.wellFormed (.epxTokenOut 0) = false := by decide
theorem test_wf_epx_token_out_data : Instr.wellFormed (.epxTokenOut 2) = false := by decide
theorem test_wf_other_pid : (List.map (fun p => Instr.wellFormed (.outOtherPid 0 p)) [0x1, 0x2, 0xD, 0xA])
    = [false, false, false, true] := by decide
theorem test_wf_rx_too_long : Instr.wellFormed (.rxCallback (List.replicate 65 0)) = false := by decide
theorem test_wf_bus_out_too_long : Instr.wellFormed (.busOut 0 2 false (List.replicate 65 0)) = false := by decide
theorem test_wf_bus_out_packet : Instr.wellFormed (.busOut 0 2 false (List.replicate 64 0)) = true := by decide

/-! ## Decoding: a word of every row, written out from 30_encoding -/

/-- V30.1: `80 06 00 01 00 00 40 00`. -/
theorem test_decode_get_descriptor_device :
    decode .setup64 [0b10000000, 0b00000110, 0b00000000, 0b00000001, 0x00, 0x00, 0b01000000, 0x00]
      = .ok (.getDescriptorDevice ⟨1, 0⟩ 0 0 64) := by rfl
/-- V41.7: `GET_DESCRIPTOR 0, 2, 1, 9`. -/
theorem test_decode_get_descriptor_configuration :
    decode .setup64 [0x80, 0x06, 0x01, 0b00000010, 0x00, 0x00, 0x09, 0x00]
      = .ok (.getDescriptorConfiguration ⟨1, 0⟩ 1 0 9) := by rfl
theorem test_decode_get_descriptor_string :
    decode .setup64 [0x80, 0x06, 0x02, 0b00000011, 0x09, 0x04, 0xFF, 0x01]
      = .ok (.getDescriptorString ⟨1, 0⟩ 2 0x0409 0x01FF) := by rfl
/-- Program 5, line 1. -/
theorem test_decode_get_descriptor_device_qualifier :
    decode .setup64 [0x80, 0x06, 0x00, 0b00000110, 0x00, 0x00, 0x0A, 0x00]
      = .ok (.getDescriptorDeviceQualifier ⟨1, 0⟩ 0 0 10) := by rfl
/-- V30.6. -/
theorem test_decode_get_descriptor_other :
    decode .setup64 [0x80, 0x06, 0x00, 0b00000100, 0x00, 0x00, 0x09, 0x00]
      = .ok (.getDescriptorOther ⟨1, 0⟩ 0x04 0 0 9) := by rfl
/-- V41.16: `wValue = 0x0085`. -/
theorem test_decode_set_address :
    decode .setup64 [0x00, 0b00000101, 0x85, 0x00, 0x00, 0x00, 0x00, 0x00] = .ok (.setAddress h0 0x0085 0 0) := by rfl
/-- Program 1, line 20. -/
theorem test_decode_set_configuration :
    decode .setup64 [0x00, 0b00001001, 0x01, 0x00, 0x00, 0x00, 0x00, 0x00] = .ok (.setConfiguration h0 1 0 0) := by rfl
/-- V30.7. -/
theorem test_decode_std_other :
    decode .setup64 [0x80, 0x00, 0x00, 0x00, 0x00, 0x00, 0x02, 0x00] = .ok (.stdOther ⟨1, 0⟩ 0 0 0 2) := by rfl
/-- Program 2, line 7. -/
theorem test_decode_class_nodata :
    decode .setup64 [0b00100001, 0x22, 0x03, 0x00, 0x00, 0x00, 0x00, 0x00] = .ok (.classNodata ⟨0, 1⟩ 0x22 3 0) := by rfl
/-- V30.3: the direction bit is kept as an operand and selects nothing. -/
theorem test_decode_class_data :
    decode .setup64 [0b10100001, 0x21, 0x00, 0x00, 0x00, 0x00, 0x07, 0x00] = .ok (.classData ⟨1, 1⟩ 0x21 0 0 7) := by rfl
/-- V30.4. -/
theorem test_decode_vendor_nodata :
    decode .setup64 [0b01000000, 0x01, 0x00, 0x00, 0x00, 0x00, 0x00, 0x00] = .ok (.vendorNodata h0 1 0 0) := by rfl
/-- R84 with `wLength = 0x0100`: a length whose low byte is 0 is not 0. -/
theorem test_decode_vendor_data :
    decode .setup64 [0b01000000, 0x01, 0x00, 0x00, 0x34, 0x12, 0x00, 0x01]
      = .ok (.vendorData h0 1 0 0x1234 0x0100) := by rfl
/-- V30.5. -/
theorem test_decode_reserved_type :
    decode .setup64 [0b01100000, 0x00, 0x00, 0x00, 0x00, 0x00, 0x00, 0x00] = .ok (.reservedType h0 0 0 0 0) := by rfl

theorem test_decode_cls_set_line_coding :
    decode .classreq8 [0b00100000, 1, 0xAA] = .ok (.clsSetLineCoding (some [0xAA])) := by rfl
theorem test_decode_cls_set_control_line_state :
    decode .classreq8 [0b00100010, 0] = .ok (.clsSetControlLineState none) := by rfl
theorem test_decode_cls_other : decode .classreq8 [0b00100011, 0] = .ok (.clsOther 0x23 none) := by rfl

/-- V30.11: `0x1009`. -/
theorem test_decode_dispatch_reset :
    decode .irq16 [0b00001001, 0b00010000] = .ok (.dispatchReset false false true .out 2) := by rfl
/-- V30.12: `0x100A`. -/
theorem test_decode_dispatch_error :
    decode .irq16 [0b00001010, 0b00010000] = .ok (.dispatchError false true .out 2) := by rfl
/-- V42.3: `0x1028`. -/
theorem test_decode_dispatch_stall :
    decode .irq16 [0b00101000, 0b00010000] = .ok (.dispatchStall true .out 2) := by rfl
/-- V30.10: `0x1408`. -/
theorem test_decode_dispatch_trn_in : decode .irq16 [0b00001000, 0b00010100] = .ok (.dispatchTrnIn 2) := by rfl
/-- V30.9: `0x0008`. -/
theorem test_decode_dispatch_trn_out : decode .irq16 [0b00001000, 0b00000000] = .ok (.dispatchTrnOut 0) := by rfl

/-- V30.13. -/
theorem test_decode_ep0_setup : decode .outdone8 [0b00001101] = .ok .ep0Setup := by rfl
/-- V30.13. -/
theorem test_decode_epx_setup : decode .outdone8 [0b00101101] = .ok (.epxSetup 2) := by rfl
/-- V30.13. -/
theorem test_decode_ep0_token_out : decode .outdone8 [0b00000001] = .ok .ep0TokenOut := by rfl
/-- V30.13. -/
theorem test_decode_data_token_out : decode .outdone8 [0b00100001] = .ok .dataTokenOut := by rfl
theorem test_decode_epx_token_out : decode .outdone8 [0b00010001] = .ok (.epxTokenOut 1) := by rfl
theorem test_decode_out_ack : decode .outdone8 [0b00100010] = .ok (.outAck 2) := by rfl
theorem test_decode_out_other_pid : decode .outdone8 [0b00001011] = .ok (.outOtherPid 0 0b1011) := by rfl

theorem test_decode_pid_out : decode .pid4 [0b0001] = .ok .pidOut := by rfl
theorem test_decode_pid_in : decode .pid4 [0b1001] = .ok .pidIn := by rfl
theorem test_decode_pid_sof : decode .pid4 [0b0101] = .ok .pidSof := by rfl
theorem test_decode_pid_setup : decode .pid4 [0b1101] = .ok .pidSetup := by rfl
theorem test_decode_pid_data0 : decode .pid4 [0b0011] = .ok .pidData0 := by rfl
theorem test_decode_pid_data1 : decode .pid4 [0b1011] = .ok .pidData1 := by rfl
theorem test_decode_pid_ack : decode .pid4 [0b0010] = .ok .pidAck := by rfl
theorem test_decode_pid_nak : decode .pid4 [0b1010] = .ok .pidNak := by rfl
theorem test_decode_pid_stall : decode .pid4 [0b1110] = .ok .pidStall := by rfl

theorem test_decode_init : decode .call8 [0x00] = .ok .init := by rfl
theorem test_decode_read_character : decode .call8 [0x01] = .ok .readCharacter := by rfl
theorem test_decode_write_character : decode .call8 [0x02, 0x41] = .ok (.writeCharacter 0x41) := by rfl
theorem test_decode_write_string : decode .call8 [0x03, 0x41, 0x42] = .ok (.writeString [0x41, 0x42]) := by rfl
theorem test_decode_arm_out : decode .call8 [0x10, 2, 1] = .ok (.armOut 2 true) := by rfl
theorem test_decode_arm_in :
    decode .call8 [0x11, 2, 0, 0x41, 0x01, 1, 0x55] = .ok (.armIn 2 (some [0x55]) 0x0141 false) := by rfl
theorem test_decode_stall_in : decode .call8 [0x12, 0] = .ok (.stallIn 0) := by rfl
theorem test_decode_rx_callback : decode .call8 [0x20, 0x07] = .ok (.rxCallback [0x07]) := by rfl
theorem test_decode_tx_done_callback : decode .call8 [0x21] = .ok .txDoneCallback := by rfl

/-- Program 1, line 9. -/
theorem test_decode_bus_setup :
    decode .busev8 [0x0D, 0x00, 0x00, 0x00, 0x05, 0x05, 0x00, 0x00, 0x00, 0x00, 0x00]
      = .ok (.busSetup 0 0 ⟨0x00, 0x05, 0x05, 0x00, 0x00, 0x00, 0x00, 0x00⟩) := by rfl
/-- Program 4, line 1. -/
theorem test_decode_bus_out :
    decode .busev8 [0x01, 0x05, 0x02, 1, 0x30, 0x31] = .ok (.busOut 5 2 true [0x30, 0x31]) := by rfl
/-- Program 3, line 8. -/
theorem test_decode_bus_in : decode .busev8 [0x09, 0x05, 0x02] = .ok (.busIn 5 2) := by rfl
/-- Program 1, line 1. -/
theorem test_decode_bus_reset : decode .busev8 [0x10] = .ok .busReset := by rfl
/-- V45.13, bit 7 of UEIR. -/
theorem test_decode_bus_error : decode .busev8 [0x11, 7] = .ok (.busError .btsef) := by rfl

/-- V30.22: CALL8 code 0x04, BUSEV8 code 0x02. -/
theorem test_decode_undefined_codes :
    decode .call8 [0x04] = .error (.undefinedCode .call8 0x04)
      ∧ decode .busev8 [0x02] = .error (.undefinedCode .busev8 0x02)
      ∧ decode .pid4 [0x00] = .error (.undefinedCode .pid4 0x00) := ⟨rfl, rfl, rfl⟩
/-- V45.14: seven data bytes; 65 data bytes. -/
theorem test_decode_host_duties :
    decode .busev8 [0x0D, 0, 0, 1, 2, 3, 4, 5, 6, 7] = .error (.recordLength .busev8)
      ∧ decode .busev8 ([0x01, 0, 2, 0] ++ List.replicate 65 0) = .error .packetTooLong
      ∧ decode .busev8 [0x09, 0x80, 0] = .error .addressRange ∧ decode .busev8 [0x09, 0, 0x10] = .error .endpointRange
      ∧ decode .busev8 [0x11, 5] = .error .errorKind := ⟨rfl, rfl, rfl, rfl, rfl⟩
theorem test_decode_no_flag : decode .irq16 [0b11010100, 0] = .error .noFlag := by rfl
theorem test_decode_record_forms :
    decode .setup64 [0, 0, 0, 0, 0, 0, 0] = .error (.recordLength .setup64)
      ∧ decode .call8 [0x10, 2, 2] = .error (.notABit .call8) := ⟨rfl, rfl⟩

/-! ## Register bytes (30_encoding R70 to R80) -/

/-- V30.8. -/
theorem test_ustat :
    ustatByte .out 0 = 0x00 ∧ ustatByte .inn 0 = 0x04 ∧ ustatByte .out 2 = 0x10 ∧ ustatByte .inn 2 = 0x14 := by decide
/-- V30.14, V30.15. -/
theorem test_stat_arm :
    (outArmed S0.bdt.ep0Out false).stat false = 0x80 ∧ (outArmed S0.bdt.ep0Out false).cntByte = 0x40
      ∧ (inArmed S0.bdt.ep0In 0 true).stat false = 0xC0 := by decide
/-- V30.16, V30.17. -/
theorem test_stat_toggle_check_and_stall :
    (outArmed S0.bdt.ep2Out true).stat true = 0xC8
      ∧ (inStalled { S0.bdt.ep0In with dts := true }).stat false = 0xC4 := by decide
/-- V30.18. -/
theorem test_stat_setup_completion :
    (gotSetup []).bdt.ep0Out.stat false = 0x34 ∧ (gotSetup []).bdt.ep0Out.cntByte = 0x08 := by decide
/-- V30.19. -/
theorem test_stat_completions :
    (gotData [1, 2, 3]).bdt.ep2Out.stat false = 0x04 ∧ (gotData [1, 2, 3]).bdt.ep2Out.cntByte = 0x03
      ∧ see (exec (.busIn 0 2) (armedData [1, 2] true)) (fun t => t.bdt.ep2In.stat false) = some 0x24 := by decide
/-- V30.20. -/
theorem test_uep_at_launch : S0.uep0 = 0x16 ∧ S0.uep1 = 0x1A ∧ S0.uep2 = 0x1E := by decide
/-- V30.21. -/
theorem test_line_coding_fields :
    (LineCoding.ofPayload [0x80, 0x25, 0, 0, 0, 0, 8]).map
        (fun l => (l.dteRate.toNat, l.charFormat.toNat, l.parityType.toNat, l.dataBits.toNat))
      = some (9600, 0, 0, 8) := by decide

/-! ## One step of each operation -/

/-- V41.3: `wLength = 64`. -/
theorem test_device :
    see (exec (.getDescriptorDevice ⟨1, 0⟩ 0 0 64) taken) (fun t => (t.bdt.ep0In.cnt, memRead t.ram 0x0540 18))
      = some (18, [0x12, 0x01, 0x00, 0x02, 0x02, 0x00, 0x00, 0x40, 0x34, 0x12, 0x78, 0x56, 0x00, 0x01, 0x01, 0x02, 0x00,
          0x01]) := by decide
/-- V41.1: `wLength = 0`. -/
theorem test_device_zero :
    see (exec (.getDescriptorDevice ⟨1, 0⟩ 0 0 0) taken) (fun t => (t.bdt.ep0In, t.ram))
      = some (⟨.sie, false, true, 0, 0, 0x0540, .cpu⟩, []) := by decide
/-- V41.6: `wLength = 255`, the last two descriptors in declared order. -/
theorem test_configuration :
    see (exec (.getDescriptorConfiguration ⟨1, 0⟩ 0 0 255) taken)
        (fun t => (t.bdt.ep0In.cnt, memRead t.ram 0x0570 14))
      = some (62, [0x07, 0x05, 0x02, 0x02, 0x40, 0x00, 0x00, 0x07, 0x05, 0x82, 0x02, 0x40, 0x00, 0x00]) := by decide
/-- V41.7: index 1. -/
theorem test_configuration_dropped :
    see (exec (.getDescriptorConfiguration ⟨1, 0⟩ 1 0 9) taken) (fun t => t.bdt) = some taken.bdt := by decide
/-- V41.9. -/
theorem test_string_truncated :
    see (exec (.getDescriptorString ⟨1, 0⟩ 1 0 2) taken) (fun t => (t.bdt.ep0In.cnt, memRead t.ram 0x0540 3))
      = some (2, [0x06, 0x03, 0x00]) := by decide
/-- V41.10. -/
theorem test_string :
    see (exec (.getDescriptorString ⟨1, 0⟩ 1 0 255) taken) (fun t => (t.bdt.ep0In.cnt, memRead t.ram 0x0540 6))
      = some (6, [0x06, 0x03, 0x41, 0x00, 0x42, 0x00]) := by decide
/-- V41.13, after the first ISR. -/
theorem test_device_qualifier :
    see (exec (.getDescriptorDeviceQualifier ⟨1, 0⟩ 0 0 10) taken) (fun t => (t.bdt.ep0In, t.bdt.ep0Out.own))
      = some (⟨.sie, true, false, 0, 0, 0x0540, .cpu⟩, .sie) := by decide
/-- V41.12. -/
theorem test_get_descriptor_other :
    see (exec (.getDescriptorOther ⟨1, 0⟩ 4 0 0 9) { taken with ctrl := .awaitingPayload 0x20 })
        (fun t => (t.bdt, t.ctrl))
      = some (taken.bdt, .awaitingRequest) := by decide
/-- V41.16. -/
theorem test_set_address :
    see (exec (.setAddress h0 0x0085 0 0) taken) (fun t => (t.pendAddr, t.addr, t.bdt.ep0In.dts, t.bdt.ep0In.cnt))
      = some (some 5, 0, true, 0) := by decide
/-- V41.18. -/
theorem test_set_configuration :
    see (exec (.setConfiguration h0 1 0 0) taken) (fun t => (t.bdt.ep0In.own, t.bdt.ep2Out, t.inTog))
      = some (.sie, taken.bdt.ep2Out, taken.inTog) := by decide
/-- V41.20. -/
theorem test_std_other :
    see (exec (.stdOther ⟨1, 0⟩ 0 0 0 2) taken) (fun t => (t.bdt, t.inisr)) = some (taken.bdt, false) := by decide
/-- V43.4. -/
theorem test_class_nodata :
    see (exec (.classNodata ⟨0, 1⟩ 0x22 3 0) taken) (fun t => (t.bdt.ep0In.own, t.bdt.ep0Out.dts, t.ctrl))
      = some (.sie, false, .awaitingRequest) := by decide
/-- V43.1. -/
theorem test_class_data :
    see (exec (.classData ⟨0, 1⟩ 0x20 0 0 7) taken) (fun t => (t.ctrl, t.bdt.ep0Out.dts, t.bdt.ep0In.own))
      = some (.awaitingPayload 0x20, true, .cpu) := by decide
/-- V43.8. -/
theorem test_vendor_nodata :
    see (exec (.vendorNodata h0 1 0 0) taken) (fun t => (t.bdt.ep0In.own, t.bdt.ep0In.cnt)) = some (.sie, 0) := by decide
/-- R105, R123. -/
theorem test_vendor_data :
    see (exec (.vendorData h0 1 0 0 3) taken) (fun t => (t.ctrl, t.bdt.ep0Out.own)) = some (.awaitingPayload 1, .sie) := by
  decide
/-- V41.21. -/
theorem test_reserved_type :
    see (exec (.reservedType h0 0 0 0 0) taken) (fun t => t.bdt) = some taken.bdt := by decide

/-- V43.2: seven bytes. -/
theorem test_cls_set_line_coding :
    see (exec (.clsSetLineCoding (some [0x80, 0x25, 0, 0, 0, 0, 8])) S0) (fun t => t.lineCoding)
      = some ⟨0x80, 0x25, 0, 0, 0, 0, 8⟩ := by decide
/-- V43.3: three bytes. -/
theorem test_cls_set_line_coding_short :
    see (exec (.clsSetLineCoding (some [0x80, 0x25, 0])) S0) id = some S0 := by decide
/-- R125. -/
theorem test_cls_set_control_line_state :
    see (exec (.clsSetControlLineState (some [1, 2, 3, 4, 5, 6, 7])) S0) id = some S0 := by decide
/-- R128. -/
theorem test_cls_other : see (exec (.clsOther 0x23 (some [1, 2, 3, 4, 5, 6, 7])) S0) id = some S0 := by decide

/-- V42.1, the first ISR. -/
theorem test_dispatch_reset :
    see (exec (.dispatchReset false false true .out 2) { gotData [1] with rstf := true }) id = some (gotData [1]) := by
  decide
/-- V42.2: the error is cleared, the completion handled in the same invocation. -/
theorem test_dispatch_error :
    see (exec (.dispatchError false true .out 2) { gotData [1] with ueir := 0x10 }) (fun t => (t.ueir, t.occ, t.ustatq))
      = some (0, 1, []) := by decide
/-- V42.5. -/
theorem test_dispatch_error_alone :
    see (exec (.dispatchError false false .out 0) { S0 with ueir := 0x04 }) id = some S0 := by decide
/-- V42.3: the completion waits. -/
theorem test_dispatch_stall :
    see (exec (.dispatchStall true .out 2)
          { gotData [7] with
            stallf := true, epStall := ⟨true, false, false⟩,
            bdt := { (gotData [7]).bdt with ep0In := inStalled S0.bdt.ep0In } })
        (fun t => (t.stallf, t.epStall.e0, t.bdt.ep0In.own, t.bdt.ep0In.stall, t.ustatq))
      = some (false, false, .cpu, false, [⟨2, .out⟩]) := by decide
/-- V41.15, the second ISR. -/
theorem test_dispatch_trn_in_address :
    see (exec (.dispatchTrnIn 0) { S0 with pendAddr := some 5, ustatq := [⟨0, .inn⟩] })
        (fun t => (t.addr, t.pendAddr, t.ustatq))
      = some (5, none, []) := by decide
/-- V70.2: the pending address is taken at endpoint 2, and the callback is not called. -/
theorem test_dispatch_trn_in_data :
    see (exec (.dispatchTrnIn 2) { S0 with pendAddr := some 5, txReady := false, ustatq := [⟨2, .inn⟩] })
        (fun t => (t.addr, t.txReady))
      = some (5, false) := by decide
/-- Program 1, line 4. -/
theorem test_dispatch_trn_out_setup :
    see (exec (.dispatchTrnOut 0) (gotSetup [0x80, 0x06, 0x00, 0x01, 0x00, 0x00, 0x40, 0x00]))
        (fun t => (t.bdt.ep0In.cnt, t.bdt.ep0Out.own, t.pktdis, t.ustatq))
      = some (18, .sie, false, []) := by decide
/-- V70.3: the arm holds, packet processing stays disabled and the completion stays queued. -/
theorem test_dispatch_trn_out_holds :
    see (exec (.dispatchTrnOut 0)
          { gotSetup [0x80, 0x06, 0x00, 0x02, 0x00, 0x00, 0x09, 0x00] with
            bdt := { (gotSetup []).bdt with ep0In := { S0.bdt.ep0In with own := .sie } } })
        (fun t => (t.inisr, t.pktdis, t.ustatq))
      = some (true, true, [⟨0, .out⟩]) := by decide

/-- Program 1, line 10. -/
theorem test_ep0_setup :
    see (exec .ep0Setup (gotSetup [0x00, 0x05, 0x05, 0x00, 0x00, 0x00, 0x00, 0x00])) (fun t => (t.pendAddr, t.pktdis))
      = some (some 5, false) := by decide
/-- R118: nothing at an endpoint other than 0. -/
theorem test_epx_setup : see (exec (.epxSetup 2) { taken with pktdis := true }) (fun t => t.pktdis) = some true := by decide
/-- V43.2. -/
theorem test_ep0_token_out_payload :
    see (exec .ep0TokenOut (gotEp0 [0x80, 0x25, 0, 0, 0, 0, 8] (.awaitingPayload 0x20)))
        (fun t => (t.lineCoding.bytes, t.ctrl, t.bdt.ep0In.dts, t.bdt.ep0Out.dts))
      = some ([0x80, 0x25, 0, 0, 0, 0, 8], .awaitingRequest, true, false) := by decide
/-- V41.23. -/
theorem test_ep0_token_out_status :
    see (exec .ep0TokenOut (gotEp0 [] .awaitingRequest)) (fun t => (t.bdt.ep0Out.own, t.bdt.ep0Out.cnt, t.bdt.ep0In.own))
      = some (.sie, 64, .cpu) := by decide
/-- Program 3, line 2. -/
theorem test_data_token_out :
    see (exec .dataTokenOut (gotData [0x61, 0x62, 0x63]))
        (fun t => (t.rxbuf.take 3, t.wr, t.occ, t.outTog.e2, t.bdt.ep2Out.dts))
      = some ([0x61, 0x62, 0x63], 3, 3, true, true) := by decide
theorem test_epx_token_out : see (exec (.epxTokenOut 3) taken) id = some taken := by decide
/-- R119: at endpoint 0 PKTDIS is written. -/
theorem test_out_ack : see (exec (.outAck 0) { taken with pktdis := true }) id = some taken := by decide
theorem test_out_other_pid :
    see (exec (.outOtherPid 0 0b1011) { taken with pktdis := true }) id = some taken := by decide

/-- R72 with log entry 7: class token-OUT of the completion at the head. -/
theorem test_pid_out : see (exec .pidOut (gotData [5])) (fun t => t.occ) = some 1 := by decide
/-- Class token-SETUP. -/
theorem test_pid_setup :
    see (exec .pidSetup (gotSetup [0x00, 0x05, 0x05, 0x00, 0x00, 0x00, 0x00, 0x00])) (fun t => t.pendAddr)
      = some (some 5) := by decide
/-- Class handshake-ACK: no further action but the end of `out_complete(0)`. -/
theorem test_pid_ack :
    see (exec .pidAck { gotEp0 [] .awaitingRequest with pktdis := true }) id = some (gotEp0 [] .awaitingRequest) := by
  decide
/-- Class other. -/
theorem test_pid_other :
    [Instr.pidIn, .pidSof, .pidData0, .pidData1, .pidNak, .pidStall].map (fun i => see (exec i (gotData [5])) id)
      = List.replicate 6 (some (gotData [5])) := by decide

/-- V70.1. -/
theorem test_init :
    see (exec .init { gotData [5] with ram := [], fault := some .noDescriptor, gie := false, diag := [.rxOverflow 2] })
        (fun t => { t with bdt := { t.bdt with ep2Out := { t.bdt.ep2Out with pid := 0 } } })
      = some S0 := by decide
/-- V60.2. -/
theorem test_init_refused :
    refusalOf (exec .init
        { S0 with cfg := { S0.cfg with catalog := { S0.cfg.catalog with dev := List.replicate 17 0 } } })
      = some .notLaunched := by decide
/-- V44.6. -/
theorem test_read_character_holds : see (exec .readCharacter S0) (fun t => (t.kfg, t.gie)) = some (.read1, true) := by
  decide
/-- V60.5. -/
theorem test_read_character_refused :
    refusalOf (exec .readCharacter { S0 with kfg := .write1 [1] 0 }) = some .fgBusy := by decide
/-- V44.11. -/
theorem test_write_character_holds :
    see (exec (.writeCharacter 0x42) { S0 with txReady := false }) (fun t => t.kfg) = some (.write1 [0x42] 0) := by decide
/-- V44.7. -/
theorem test_write_string_empty : see (exec (.writeString []) S0) id = some S0 := by decide
/-- Program 3, line 7, up to the first line. -/
theorem test_write_string : see (exec (.writeString [1, 2]) S0) (fun t => t.kfg) = some (.write2 [1, 2] 0) := by decide
/-- V40.1. -/
theorem test_arm_out :
    see (exec (.armOut 2 true) { gotData [5] with ustatq := [] }) (fun t => t.bdt.ep2Out)
      = some ⟨.sie, false, true, 64, 0b0001, 0x05C0, .cpu⟩ := by decide
/-- V40.8. -/
theorem test_arm_out_fault : see (exec (.armOut 1 false) S0) (fun t => t.fault) = some (some .noDescriptor) := by decide
/-- V40.2. -/
theorem test_arm_in :
    see (exec (.armIn 2 (some [0x41, 0x42, 0x43, 0x44]) 3 false) S0) (fun t => (memRead t.ram 0x0600 4, t.bdt.ep2In))
      = some ([0x41, 0x42, 0x43, 0x00], ⟨.sie, false, false, 3, 0, 0x0600, .cpu⟩) := by decide
/-- V40.9: the length check precedes the hold. -/
theorem test_arm_in_fault :
    see (exec (.armIn 2 (some (List.replicate 65 0)) 65 false) (armedData [1] false)) (fun t => t.fault)
      = some (some .armInOverlength) := by decide
/-- V40.10. -/
theorem test_stall_in :
    see (exec (.stallIn 0) { S0 with bdt := { S0.bdt with ep0In := { S0.bdt.ep0In with dts := true } } })
        (fun t => t.bdt.ep0In)
      = some ⟨.sie, true, true, 0, 0, 0x0540, .cpu⟩ := by decide
/-- V44.2. -/
theorem test_rx_callback_overflow :
    see (exec (.rxCallback [1, 2, 3, 4, 5, 6, 7, 8, 9, 10]) (gotData []))
        (fun t => (t.rxbuf, t.occ, t.wr, t.diag, t.bdt.ep2Out.dts))
      = some ([1, 2, 3, 4, 5, 6, 7, 8], 8, 0, [.rxOverflow 2], true) := by decide
/-- V44.3. -/
theorem test_rx_callback_empty :
    see (exec (.rxCallback []) (gotData [])) (fun t => (t.occ, t.diag, t.outTog.e2, t.bdt.ep2Out.own))
      = some (0, [], true, .sie) := by decide
/-- V44.10. -/
theorem test_tx_done_callback :
    see (exec .txDoneCallback { S0 with txReady := false, ustatq := [⟨2, .inn⟩] }) (fun t => t.txReady) = some true := by
  decide
/-- V42.8: no ISR entry while GIE = 0, nor without a request (R111). -/
theorem test_row_needs_entry :
    [gotData [1], { gotData [1] with gie := false }, { gotData [1] with ustatq := [] }, inIsr (gotData [1])].map
        (fun s => (refusalOf (exec .dataTokenOut { s with kisr := .inactive }), refusalOf (exec (.dispatchTrnOut 2) s)))
      = [(none, none), (some .interruptsMasked, some .interruptsMasked), (some .isrNotReady, some .isrNotReady),
          (some .isrActive, some .isrActive)] := by decide

/-- Program 1, line 3. -/
theorem test_bus_setup :
    see (exec (.busSetup 0 0 ⟨0x80, 0x06, 0x00, 0x01, 0x00, 0x00, 0x40, 0x00⟩) S0)
        (fun t => t.answers)
      = some [.ack]
    ∧ see (exec (.busSetup 0 0 ⟨0x80, 0x06, 0x00, 0x01, 0x00, 0x00, 0x40, 0x00⟩) S0) (fun t => { t with answers := [] })
      = some (gotSetup [0x80, 0x06, 0x00, 0x01, 0x00, 0x00, 0x40, 0x00]) := by decide
/-- V45.4. -/
theorem test_bus_setup_other_endpoint :
    see (exec (.busSetup 0 2 ⟨0x80, 6, 0, 1, 0, 0, 0x12, 0⟩) S0) id = some (S0.answer .none) := by decide
/-- V45.8: a duplicate is acknowledged and discarded. -/
theorem test_bus_out_duplicate :
    see (exec (.busOut 0 2 true [0x55]) { S0 with cfg := { S0.cfg with toggleCheck := true } })
        (fun t => (t.answers, t.bdt, t.ustatq))
      = some ([.ack], S0.bdt, []) := by decide
/-- Program 4, line 1. -/
theorem test_bus_out :
    see (exec (.busOut 0 2 true [0x30, 0x31]) S0) (fun t => (t.bdt.ep2Out.cnt, t.bdt.ep2Out.own, memRead t.ram 0x05C0 2))
      = some (2, .cpu, [0x30, 0x31]) := by decide
/-- V45.15. -/
theorem test_bus_in :
    see (exec (.busIn 0 2) (armedData [0x61, 0x62] false)) (fun t => (t.answers, t.bdt.ep2In, t.ustatq))
      = some ([.data false [0x61, 0x62]], ⟨.cpu, false, false, 2, 0b1001, 0x0600, .sie⟩, [⟨2, .inn⟩]) := by decide
/-- V41.13: STALL sets the flag and the condition, and queues nothing. -/
theorem test_bus_in_stall :
    see (exec (.busIn 0 0) { S0 with bdt := { S0.bdt with ep0In := inStalled S0.bdt.ep0In } })
        (fun t => (t.answers, t.stallf, t.epStall, t.ustatq))
      = some ([.stall], true, ⟨true, false, false⟩, []) := by decide
/-- V45.12: without P_RESET_CLEARS_ADDR the address stays. -/
theorem test_bus_reset :
    see (exec .busReset { S0 with addr := 5, cfg := { S0.cfg with resetClearsAddr := false } }) (fun t => (t.addr, t.rstf))
      = some (5, true) := by decide
/-- V45.13. -/
theorem test_bus_error : see (exec (.busError .btsef) S0) (fun t => (t.ueir, t.bdt)) = some (0b10000000, S0.bdt) := by
  decide

/-! ## Steps of the machine -/

/-- V60.7: with FG at a hold, the next processor-side step is the ISR's; KFG is kept. -/
theorem test_isr_before_fg :
    see (step { gotData [1] with kfg := .read1 }) (fun t => (t.kfg, t.occ)) = some (.read1, 1) := by decide
/-- V42.8: between DI and EI FG's next line comes first. -/
theorem test_critical_section :
    see (step { gotData [1] with gie := false, kfg := .read4 9, occ := 1 }) (fun t => (t.kfg, t.occ, t.rd))
      = some (.read5 9, 0, 1) := by decide
/-- V42.7: while an invocation holds neither a second one nor FG steps. -/
theorem test_hold_blocks_fg :
    see (step { heldIn with inisr := true, kisr := .active [.arm (.stallIn 0), .ret], rstf := true, kfg := .read3 1 })
        (fun t => (t.kfg, t.rstf, t.inisr))
      = some (.read3 1, true, true) := by decide
/-- D17: at the hold point between the ZLP and the OUT re-arm a bus event may come: the host collects the ZLP before the
re-arm, and the invocation then ends with the IN completion queued. -/
theorem test_bus_at_hold_point :
    see (Host.Core.run core 4
          { gotEp0 [1] (.awaitingPayload 0x22) with feed := [.proc, .proc, .word .busev8 [0x09, 0, 0], .proc] })
        (fun t => (t.answers, t.ustatq, t.bdt.ep0In.own, t.bdt.ep0Out.own, t.inisr))
      = some ([.data true []], [⟨0, .inn⟩], .cpu, .sie, false) := by decide
/-- R60, R171: between DI and EI a line of the ISR context is refused. -/
theorem test_no_isr_in_critical_section :
    refusalOf (step { gotData [1] with gie := false, kfg := .read4 9, occ := 1, feed := [.word .call8 [0x20, 7]] })
      = some .interruptsMasked := by decide
/-- V60.1: FAULT stops every agent. -/
theorem test_faulted :
    step { S0 with fault := some .armInNodata, feed := [.word .busev8 [0x10]] } = .fault .armInNodata := by rfl
/-- V60.4. -/
theorem test_isr_line_refused : step { S0 with feed := [.isr] } = .refused .isrNotReady := by rfl
/-- V44.5: the cursor wraps. -/
theorem test_cursor_wraps :
    see (step { S0 with rd := 7, occ := 2, gie := false, kfg := .read4 9 }) (fun t => (t.rd, t.occ)) = some (0, 1) := by
  decide
/-- R87: two FG.READ lines one after the other; the first has returned when the second starts. -/
theorem test_fg_read_lines :
    see (Host.Core.run core 7 { ringed [7, 8] with feed := [.fgRead, .fgRead] }) (fun t => (t.returned, t.kfg, t.feed))
      = some ([7], .read2, [.fgRun]) := by decide
/-- R87 and V44.7: FG.WRITE of an empty string returns at once, the line is over. -/
theorem test_fg_write_empty_line : step { S0 with feed := [.fgWrite []] } = .next S0 := by rfl
/-- V44.6: FG.READ ends at its hold with KFG there. -/
theorem test_fg_read_line_holds :
    see (Host.Core.run core 2 { S0 with feed := [.fgRead, .isrStar] }) (fun t => (t.kfg, t.feed))
      = some (.read1, [.isrStar]) := by decide
/-- V60.5. -/
theorem test_fg_read_line_refused :
    step { S0 with kfg := .write1 [1] 0, txReady := false, feed := [.fgRead] } = .refused .fgBusy := by rfl
/-- V44.12: the second chunk of 65 bytes has one byte. -/
theorem test_last_chunk :
    see (step { S0 with kfg := .write2 (List.replicate 65 1) 64 }) (fun t => (t.kfg, t.txReady))
      = some (.write3 (List.replicate 65 1) 64 1, false) := by decide

/-! ## Witnesses: for each statement with hypotheses, states and operands that meet them

Every clause is met at a boundary of its range where it has one. -/

theorem enter_taken : CanEnter taken := ⟨rfl, rfl, rfl, rfl⟩
theorem free_taken : Ep0Free taken := ⟨rfl, rfl⟩

/-- The extreme admissible parameters, and the first inadmissible ones: P_RXCAP 1, 255, 0, 256; P_USTAT_DEPTH 1, 0; string
data of 253, 254 bytes; buffers 64, 63 bytes apart. -/
theorem witness_InitLaunchesOrRefuses :
    paramsWf S0.cfg = true
      ∧ paramsWf { S0.cfg with rxCap := 1, ustatDepth := 1 } = true ∧ paramsWf { S0.cfg with rxCap := 255 } = true
      ∧ paramsWf { S0.cfg with rxCap := 0 } = false ∧ paramsWf { S0.cfg with rxCap := 256 } = false
      ∧ paramsWf { S0.cfg with ustatDepth := 0 } = false
      ∧ paramsWf { S0.cfg with bufAddr := { S0.cfg.bufAddr with ep2In := 0x05FF } } = false
      ∧ paramsWf { S0.cfg with bufAddr := { S0.cfg.bufAddr with ep2In := 0x04C0 } } = true := by decide
theorem witness_InitLaunchesOrRefuses_strings :
    (List.map (fun n => decide ((List.replicate n (0 : Byte)).length ≤ 253)) [253, 254]) = [true, false]
      ∧ refusalOf (exec .init { S0 with cfg := { S0.cfg with catalog := { S0.cfg.catalog with strs := [] } } })
        = some .notLaunched := by simp only [List.length_replicate, List.map]; decide

theorem witness_DeviceDescriptorIsSent : CanEnter taken ∧ Ep0Free taken ∧ taken.cfg.catalog.dev.length = 18 :=
  ⟨enter_taken, free_taken, rfl⟩
/-- Index 0 of one configuration; index 1, the first out of range. -/
theorem witness_ConfigurationDescriptorIsSent :
    CanEnter taken ∧ Ep0Free taken ∧ taken.cfg.catalog.confs[(0 : Byte).toNat]?.isSome = true
      ∧ taken.cfg.catalog.confs.length ≤ (1 : Byte).toNat := ⟨enter_taken, free_taken, rfl, by decide⟩
/-- Index 2, the last of three strings; index 3. -/
theorem witness_StringDescriptorIsComposed :
    CanEnter taken ∧ Ep0Free taken ∧ taken.cfg.catalog.strs[(2 : Byte).toNat]? = some [0x43, 0x00]
      ∧ taken.cfg.catalog.strs.length ≤ (3 : Byte).toNat := ⟨enter_taken, free_taken, rfl, by decide⟩
theorem witness_DeviceQualifierStallsEp0In : CanEnter taken ∧ Ep0Free taken := ⟨enter_taken, free_taken⟩
/-- Whoever owns the descriptors: the SIE's, in S0. -/
theorem witness_DroppedRequestsArmNothing :
    CanEnter { S0 with rstf := true } ∧ CanEnter taken ∧ S0.bdt.ep0Out.own = .sie := ⟨⟨rfl, rfl, rfl, rfl⟩, enter_taken, rfl⟩
theorem witness_AddressAndConfigurationAreAcknowledged : CanEnter taken ∧ Ep0Free taken := ⟨enter_taken, free_taken⟩
theorem witness_ClassRequestsAreStagedOrAcknowledged :
    CanEnter taken ∧ taken.bdt.ep0Out.own = .cpu ∧ taken.bdt.ep0In.own = .cpu := ⟨enter_taken, rfl, rfl⟩
theorem witness_RequestsHoldOnAnArmedDescriptor :
    let s : State := { S0 with rstf := true }
    (CanEnter heldIn ∧ heldIn.bdt.ep0In.own = .sie ∧ heldIn.cfg.catalog.confs[(0 : Byte).toNat]?.isSome = true
        ∧ heldIn.cfg.catalog.strs[(2 : Byte).toNat]? = some [0x43, 0x00])
      ∧ CanEnter s ∧ s.bdt.ep0Out.own = .sie ∧ s.bdt.ep0In.own = .cpu ∧ s.cfg.catalog.dev.length = 18
      ∧ s.cfg.catalog.confs[(0 : Byte).toNat]?.isSome = true ∧ s.cfg.catalog.strs[(2 : Byte).toNat]? = some [0x43, 0x00] :=
  ⟨⟨⟨rfl, rfl, rfl, rfl⟩, rfl, rfl, rfl⟩, ⟨rfl, rfl, rfl, rfl⟩, rfl, rfl, rfl, rfl, rfl⟩
/-- V41.1 with the OUT descriptor still armed: what is left of the invocation. -/
theorem test_holds_at_the_second_arm :
    see (exec (.getDescriptorDevice ⟨1, 0⟩ 0 0 0) { S0 with rstf := true }) (fun t => (t.kisr, t.bdt.ep0In.own))
      = some (.active [.arm (.armOut 0 false), .ret], .sie) := by decide
theorem witness_HeldSetupResumesWhereItStopped :
    (Instr.setAddress h0 5 0 0).format = .setup64 ∧ CanEnter heldIn ∧ heldIn.fault = none ∧ heldIn.bdt.ep0In.own = .sie
      ∧ (∃ t, exec (.setAddress h0 5 0 0) heldIn = .next t ∧ t.inisr = true)
      ∧ taken.bdt.ep0In.own = .cpu ∧ taken.bdt.ep0Out.own = .cpu ∧ taken.ustatq ≠ [] :=
  ⟨rfl, ⟨rfl, rfl, rfl, rfl⟩, rfl, rfl, exists_next (by decide), rfl, rfl, by decide⟩
/-- Atomic steps: an arm that holds, an arm that is done with one after it; a first step that ends at a hold point, and one
that is the whole invocation. -/
theorem witness_HeldSetupResumesWhereItStopped_steps :
    (ArmOp.armIn 0 none 0 true).run heldIn = .hold
      ∧ (∃ u, (ArmOp.armIn 0 none 0 true).run taken = .done u) ∧ (ArmOp.armOut 0 false).legal = true
      ∧ (gotData [1]).isrReady = true ∧ (gotData [1]).fault = none
      ∧ (∃ t, step { gotData [1] with feed := [.proc, .isrRun] } = .next t ∧ t.fault = none ∧ t.inisr = true)
      ∧ ∃ t, step { S0 with rstf := true, feed := [.proc, .isrRun] } = .next t ∧ t.fault = none ∧ t.inisr = false :=
  ⟨rfl, ⟨_, rfl⟩, rfl, rfl, rfl, exists_next (by decide), exists_next (by decide)⟩
theorem witness_RowInsideAnInvocation :
    isIsrRow (.rxCallback [1]) = true ∧ (gotData [1]).fault = none
      ∧ (KIsr.active [.dequeue, .ret]).ops.all IsrOp.legal = true
      ∧ ∃ t, exec (.rxCallback [1]) { gotData [1] with inisr := false, kisr := .inactive } = .next t
          ∧ t.inisr = false ∧ t.fault = none := ⟨rfl, rfl, rfl, exists_next (by decide)⟩
theorem witness_RowInsideAnInvocation_setup :
    isIsrRow (.setAddress h0 5 0 0) = true ∧ taken.fault = none
      ∧ (KIsr.active [.pktdisOff, .dequeue, .ret]).ops.all IsrOp.legal = true
      ∧ ∃ t, exec (.setAddress h0 5 0 0) { taken with inisr := false, kisr := .inactive } = .next t
          ∧ t.inisr = false ∧ t.fault = none := ⟨rfl, rfl, rfl, exists_next (by decide)⟩
/-- Seven bytes, and six. -/
theorem witness_ClassRequestsTouchLineCodingAlone :
    7 ≤ [0x80, 0x25, 0, 0, 0, 0, (8 : Byte)].length
      ∧ ∀ d, some [0x80, 0x25, 0, 0, 0, (0 : Byte)] = some d → d.length < 7 :=
  ⟨by decide, fun d h => by cases h; decide⟩
theorem witness_SetupCompletionRunsItsRow :
    let s := gotSetup [0x00, 0x05, 0x05, 0x00, 0x00, 0x00, 0x00, 0x00]
    CanEnter s ∧ Ep0Free s ∧ decode .setup64 (memRead s.ram s.bdt.ep0Out.adr 8) = .ok (.setAddress h0 5 0 0) :=
  ⟨⟨rfl, rfl, rfl, rfl⟩, ⟨rfl, rfl⟩, rfl⟩
theorem witness_SetupCompletionRunsItsRow_hold :
    let s := { gotSetup [0x00, 0x05, 0x05, 0x00, 0x00, 0x00, 0x00, 0x00] with bdt := heldIn.bdt }
    CanEnter s ∧ decode .setup64 (memRead s.ram s.bdt.ep0Out.adr 8) = .ok (.setAddress h0 5 0 0)
      ∧ ∃ t, exec (.setAddress h0 5 0 0) s = .next t
          ∧ t.kisr = .active ([.arm (.armIn 0 none 0 true), .arm (.armOut 0 false)] ++ [.ret]) :=
  ⟨⟨rfl, rfl, rfl, rfl⟩, rfl, exists_next (by decide)⟩
theorem witness_Ep0OutPacketEndsAStage :
    (CanEnter (gotEp0 [] .awaitingRequest) ∧ (gotEp0 [] .awaitingRequest).bdt.ep0Out.own = .cpu)
      ∧ ∀ req, CanEnter (gotEp0 [1, 2, 3] (.awaitingPayload req)) ∧ Ep0Free (gotEp0 [1, 2, 3] (.awaitingPayload req)) :=
  ⟨⟨⟨rfl, rfl, rfl, rfl⟩, rfl⟩, fun _ => ⟨⟨rfl, rfl, rfl, rfl⟩, rfl, rfl⟩⟩
theorem witness_OtherOutCompletions : CanEnter (gotData [1]) ∧ (gotData [1]).bdt.ep2Out.own = .cpu :=
  ⟨⟨rfl, rfl, rfl, rfl⟩, rfl⟩
/-- An empty queue, an IN completion at the head, and OUT completions of the endpoints 0, 2 and 1. -/
theorem witness_PidRowsClassify :
    let s : State := { S0 with rstf := true }
    let q : State := { S0 with ustatq := [⟨0, .inn⟩] }
    (CanEnter s ∧ ∀ c, s.ustatq.head? = some c → c.dir = .inn) ∧ (CanEnter q ∧ ∀ c, q.ustatq.head? = some c → c.dir = .inn)
      ∧ CanEnter (gotSetup []) ∧ (gotSetup []).ustatq = [⟨0, .out⟩] ∧ CanEnter (gotData [])
      ∧ (gotData []).ustatq = [⟨2, .out⟩] ∧ CanEnter { S0 with ustatq := [⟨1, .out⟩] } :=
  ⟨⟨⟨rfl, rfl, rfl, rfl⟩, fun c h => by cases h⟩, ⟨⟨rfl, rfl, rfl, rfl⟩, fun c h => by cases h; rfl⟩,
    ⟨rfl, rfl, rfl, rfl⟩, rfl, ⟨rfl, rfl, rfl, rfl⟩, rfl, ⟨rfl, rfl, rfl, rfl⟩⟩
/-- Each flag alone lets an invocation start. -/
theorem witness_CanEnter :
    CanEnter { S0 with rstf := true } ∧ CanEnter { S0 with ueir := 1 } ∧ CanEnter { S0 with stallf := true }
      ∧ CanEnter taken :=
  ⟨⟨rfl, rfl, rfl, rfl⟩, ⟨rfl, rfl, rfl, rfl⟩, ⟨rfl, rfl, rfl, rfl⟩, enter_taken⟩
theorem witness_ResetInvocationClearsRstfAlone : CanEnter { gotData [1] with rstf := true } := ⟨rfl, rfl, rfl, rfl⟩
/-- The OUT descriptors a completion may name are those of the endpoints 0 and 2; the error alone, and with another flag. -/
theorem witness_ErrorInvocationClearsUeirAndGoesOn :
    CanEnter { gotData [1] with ueir := 0x10 } ∧ (gotData [1]).irq = true
      ∧ CanEnter { gotSetup [] with ueir := 0x10, stallf := true } ∧ CanEnter { S0 with ueir := 0x10 }
      ∧ ((0 : BitVec 4) = 0 ∨ (0 : BitVec 4) = 2) ∧ ((2 : BitVec 4) = 0 ∨ (2 : BitVec 4) = 2) :=
  ⟨⟨rfl, rfl, rfl, rfl⟩, rfl, ⟨rfl, rfl, rfl, rfl⟩, ⟨rfl, rfl, rfl, rfl⟩, .inl rfl, .inr rfl⟩
theorem witness_StallInvocationReleasesStalledEndpoints :
    CanEnter { heldIn with stallf := true, epStall := ⟨true, false, false⟩ } := ⟨rfl, rfl, rfl, rfl⟩
theorem witness_InCompletionAppliesAddressOrCallsBack :
    (CanEnter { S0 with pendAddr := some 5, ustatq := [⟨0, .inn⟩] })
      ∧ (CanEnter { S0 with ustatq := [⟨2, .inn⟩] } ∧ S0.pendAddr = none) ∧ (1 : BitVec 4) ≠ 2 ∧ (3 : BitVec 4) ≠ 2 :=
  ⟨⟨rfl, rfl, rfl, rfl⟩, ⟨⟨rfl, rfl, rfl, rfl⟩, rfl⟩, by decide, by decide⟩
theorem witness_OutCompletionRunsItsRow :
    (CanEnter (gotData [1]) ∧ slotOf 2 .out = some .ep2Out
        ∧ decode .outdone8 [outDoneByte 2 ((gotData [1]).bd .ep2Out).pid] = .ok .dataTokenOut
        ∧ ((gotData [1]).bd .ep2Out).own = .cpu ∧ ((2 : BitVec 4) = 0 → (gotData [1]).bdt.ep0In.own = .cpu))
      ∧ (CanEnter (gotSetup []) ∧ slotOf 0 .out = some .ep0Out
        ∧ decode .outdone8 [outDoneByte 0 ((gotSetup []).bd .ep0Out).pid] = .ok .ep0Setup
        ∧ ((gotSetup []).bd .ep0Out).own = .cpu ∧ (gotSetup []).bdt.ep0In.own = .cpu) :=
  ⟨⟨⟨rfl, rfl, rfl, rfl⟩, rfl, rfl, rfl, fun _ => rfl⟩, ⟨rfl, rfl, rfl, rfl⟩, rfl, rfl, rfl, rfl⟩
/-- Endpoints 1 and 3 have no OUT descriptor, endpoint 2 has one. -/
theorem witness_OutCompletionRunsItsRow_fault :
    CanEnter { S0 with ustatq := [⟨1, .out⟩] } ∧ S0.fault = none ∧ dirEnabled 1 .out = false ∧ dirEnabled 3 .out = false
      ∧ dirEnabled 2 .out = true := ⟨⟨rfl, rfl, rfl, rfl⟩, rfl, rfl, rfl, rfl⟩
theorem witness_OutCompletionRunsItsRow_hold :
    let s := { gotEp0 [1] (.awaitingPayload 0x22) with
      bdt := { (gotEp0 [1] (.awaitingPayload 0x22)).bdt with ep0In := heldIn.bdt.ep0In } }
    CanEnter s ∧ decode .outdone8 [outDoneByte 0 (s.bd .ep0Out).pid] = .ok .ep0TokenOut
      ∧ ∃ t, exec .ep0TokenOut s = .next t
          ∧ t.kisr = .active ([.arm (.armIn 0 none 0 true), .arm (.armOut 0 false), .pktdisOff] ++ [.ret]) :=
  ⟨⟨rfl, rfl, rfl, rfl⟩, rfl, exists_next (by decide)⟩
theorem witness_ArmOutArmsOrHolds :
    slotOf 2 .out = some .ep2Out
      ∧ (FgFree { gotData [1] with ustatq := [] } ∧ ((gotData [1]).bd .ep2Out).own = .cpu)
      ∧ (FgFree S0 ∧ (S0.bd .ep2Out).own = .sie)
      ∧ ((inIsr (gotData [1])).inisr = true ∧ (inIsr (gotData [1])).kisr = .active [.ret]
        ∧ ((inIsr (gotData [1])).bd .ep2Out).own = .cpu ∧ ((inIsr S0).bd .ep2Out).own = .sie) :=
  ⟨rfl, ⟨⟨rfl, rfl, rfl⟩, rfl⟩, ⟨⟨rfl, rfl, rfl⟩, rfl⟩, rfl, rfl, rfl, rfl⟩
/-- Lengths 64 and 0; data as long as `len`, one byte shorter, and absent; both owners. -/
theorem witness_ArmInCopiesArmsOrHolds :
    slotOf 2 .inn = some .ep2In ∧ slotOf 1 .inn = some .ep1In ∧ (64 : BitVec 16).toNat ≤ 64
      ∧ ((none : Option (List Byte)) = none → (0 : BitVec 16) = 0)
      ∧ (64 : BitVec 16).toNat ≤ (List.replicate 64 (0 : Byte)).length
      ∧ (List.replicate 63 (0 : Byte)).length < (64 : BitVec 16).toNat
      ∧ (FgFree S0 ∧ (S0.bd .ep2In).own = .cpu) ∧ (FgFree (armedData [1] true) ∧ ((armedData [1] true).bd .ep2In).own = .sie)
      ∧ (inIsr S0).inisr = true ∧ (inIsr S0).kisr = .active [.ret] ∧ ((inIsr S0).bd .ep2In).own = .cpu
      ∧ ((inIsr (armedData [1] true)).bd .ep2In).own = .sie :=
  ⟨rfl, rfl, by decide, fun _ => rfl, by decide, by decide, ⟨⟨rfl, rfl, rfl⟩, rfl⟩, ⟨⟨rfl, rfl, rfl⟩, rfl⟩, rfl, rfl, rfl,
    rfl⟩
theorem witness_StallInStallsOrHolds :
    slotOf 0 .inn = some .ep0In ∧ (FgFree S0 ∧ (S0.bd .ep0In).own = .cpu)
      ∧ (FgFree { heldIn with ustatq := [] } ∧ (heldIn.bd .ep0In).own = .sie)
      ∧ (inIsr S0).kisr = .active [.ret] ∧ ((inIsr S0).bd .ep0In).own = .cpu ∧ ((inIsr heldIn).bd .ep0In).own = .sie :=
  ⟨rfl, ⟨⟨rfl, rfl, rfl⟩, rfl⟩, ⟨⟨rfl, rfl, rfl⟩, rfl⟩, rfl, rfl, rfl⟩
/-- For the fault clauses of the three arming operations: `len` 65 against 64; one byte of absent data; the directions that do not exist. -/
theorem witness_ArmingFaults :
    S0.fault = none ∧ FgFree S0 ∧ (inIsr S0).inisr = true ∧ (∃ k, (inIsr S0).kisr = .active k)
      ∧ 64 < (65 : BitVec 16).toNat ∧ (64 : BitVec 16).toNat ≤ 64 ∧ 0 < (1 : BitVec 16).toNat
      ∧ dirEnabled 3 .inn = false ∧ dirEnabled 1 .out = false ∧ dirEnabled 1 .inn = true :=
  ⟨rfl, ⟨rfl, rfl, rfl⟩, rfl, ⟨_, rfl⟩, by decide⟩

/-- Nothing stored, the ring filled to its last place, and one byte too many. -/
theorem witness_CallbacksOfTheDataEndpoint :
    let s : State := { ringed [1, 2, 3] with bdt := (gotData []).bdt, ustatq := [⟨2, .out⟩] }
    CanEnter s ∧ RingOk s ∧ s.bdt.ep2Out.own = .cpu
      ∧ [([] : List Byte), [1, 2, 3, 4, 5], [1, 2, 3, 4, 5, 6]].map (fun d => min d.length (s.cfg.rxCap - s.occ.toNat))
        = [0, 5, 5] := by
  refine ⟨⟨rfl, rfl, rfl, rfl⟩, ?_, rfl, by decide⟩
  unfold RingOk; decide
theorem witness_ForegroundCallsAndLines :
    FgFree S0 ∧ S0.occ = 0 ∧ FgFree (ringed [1]) ∧ (ringed [1]).occ ≠ 0 ∧ FgFree { S0 with txReady := false } := by
  refine ⟨⟨rfl, rfl, rfl⟩, rfl, ⟨rfl, rfl, rfl⟩, by decide, ⟨rfl, rfl, rfl⟩⟩
/-- The lines: one state for each continuation, outside the ISR with no interrupt to take. -/
theorem witness_ForegroundCallsAndLines_steps :
    (∀ k : KFg, ({ ringed [1] with kfg := k } : State).isrReady = false ∧ ({ ringed [1] with kfg := k } : State).fault = none
        ∧ ({ ringed [1] with kfg := k } : State).feed = [] ∧ ({ ringed [1] with kfg := k } : State).inisr = false)
      ∧ (ringed [1]).rxbuf[(ringed [1]).rd]? = some 1
      ∧ (armedData [1] true).bdt.ep2In.own = .sie ∧ (armedData [1] true).isrReady = false
      ∧ dirEnabled 2 .out = true ∧ dirEnabled 0 .inn = true ∧ (ArmOp.armIn 2 (some [1]) 64 true).legal = true :=
  ⟨fun _ => ⟨rfl, rfl, rfl, rfl⟩, rfl, rfl, rfl, rfl, rfl, rfl⟩
/-- Lines of FG outside the ISR: a call's line starts, and FG.RUN stands at a hold of each kind. -/
theorem witness_ForegroundCallsAndLines_program :
    (FgFree S0 ∧ S0.fault = none ∧ ([1] : List Byte) ≠ [])
      ∧ (let s : State := { S0 with kfg := .read1, feed := [.fgRun] }
         s.fault = none ∧ s.inisr = false ∧ s.isrReady = false ∧ s.occ = 0 ∧ step s = .next { s with feed := [] })
      ∧ (let s : State := { S0 with kfg := .write1 [1] 0, txReady := false, feed := [.fgRun] }
         s.fault = none ∧ s.inisr = false ∧ s.isrReady = false ∧ step s = .next { s with feed := [] }) :=
  ⟨⟨⟨rfl, rfl, rfl⟩, rfl, by simp⟩, ⟨rfl, rfl, rfl, rfl, rfl⟩, rfl, rfl, rfl, rfl⟩
/-- Both forms of the program. -/
theorem witness_ReadCharacterReturnsTheOldestByte :
    let s : State := ringed [7, 8]
    FgFree s ∧ s.fault = none ∧ s.irq = false ∧ RingOk s ∧ ringBytes s = [7, 8]
      ∧ see (Host.Core.run core 6 { s with feed := [.fgRead] }) (fun t => (t.returned, t.feed)) = some ([7], [])
      ∧ see (Host.Core.run core 6 { s with feed := [.word .call8 [0x01], .fgRun] }) (fun t => (t.returned, t.feed))
          = some ([7], []) := by
  refine ⟨⟨rfl, rfl, rfl⟩, rfl, rfl, ?_, by decide, by decide, by decide⟩
  unfold RingOk; decide
/-- A last chunk, and a chunk of 64 bytes with one to follow. -/
theorem witness_WriteStringArmsOneChunk :
    let s : State := { S0 with kfg := .write1 (List.replicate 65 1) 64, feed := [.fgRun] }
    s.fault = none ∧ s.inisr = false ∧ s.irq = false ∧ 64 < (List.replicate 65 (1 : Byte)).length
      ∧ s.txReady = true ∧ s.bdt.ep2In.own = .cpu ∧ 0 < (List.replicate 65 (1 : Byte)).length
      ∧ min ((List.replicate 65 (1 : Byte)).length - 64) 64 = 1 ∧ min ((List.replicate 65 (1 : Byte)).length - 0) 64 = 64 := by
  decide
/-- V44.12: lengths 64 and 65. -/
theorem witness_ChunksCoverTheString :
    List.replicate 64 (0 : Byte) ≠ [] ∧ ((List.replicate 64 (0 : Byte)).length + 63) / 64 = 1
      ∧ ((List.replicate 65 (0 : Byte)).length + 63) / 64 = 2 := by decide

/-- Another address; a direction the endpoint table does not enable; packet processing disabled; a queue with one entry
less than its depth is not full, and at its depth it is. -/
theorem witness_TokenFilters :
    let full : State := { S0 with ustatq := List.replicate 4 ⟨1, .inn⟩ }
    (5 : BitVec 7) ≠ S0.addr ∧ (0 : BitVec 7) = S0.addr ∧ dirEnabled 1 .out = false ∧ dirEnabled 3 .inn = false
      ∧ (gotSetup []).pktdis = true ∧ dirEnabled 2 .out = true ∧ dirEnabled 1 .inn = true
      ∧ full.cfg.ustatDepth ≤ full.ustatq.length ∧ full.pktdis = false
      ∧ (full.bd .ep2Out).own = .sie ∧ (full.bd .ep2Out).stall = false ∧ slotOf 2 .out = some .ep2Out
      ∧ ((({ armedData [1] true with ustatq := full.ustatq } : State).bd .ep2In).own = .sie)
      ∧ ((armedData [1] true).bd .ep2In).stall = false ∧ slotOf 2 .inn = some .ep2In := by decide
theorem witness_SetupIsAcceptedOrIgnored :
    let s : State := { S0 with ustatq := List.replicate 3 ⟨1, .inn⟩ }
    (0 : BitVec 7) = s.addr ∧ s.pktdis = false ∧ s.ustatq.length < s.cfg.ustatDepth ∧ s.bdt.ep0Out.own = .sie
      ∧ (2 : BitVec 4) ≠ 0 ∧ (0 : BitVec 7) = taken.addr ∧ taken.bdt.ep0Out.own = .cpu := by decide
theorem witness_OutPacketIsReceivedOrTurnedAway :
    let s : State := { S0 with ustatq := List.replicate 3 ⟨1, .inn⟩ }
    let c : State := { s with cfg := { s.cfg with toggleCheck := true } }
    let st : State := { s with bdt := { s.bdt with ep2Out := { s.bdt.ep2Out with stall := true } } }
    slotOf 2 .out = some .ep2Out ∧ s.pktdis = false ∧ s.ustatq.length < s.cfg.ustatDepth
      ∧ ((s.bd .ep2Out).own = .sie ∧ (s.bd .ep2Out).stall = false
        ∧ ¬(s.cfg.toggleCheck = true ∧ true ≠ (s.bd .ep2Out).dts))
      ∧ ((c.bd .ep2Out).own = .sie ∧ (c.bd .ep2Out).stall = false ∧ c.cfg.toggleCheck = true
        ∧ true ≠ (c.bd .ep2Out).dts ∧ ¬(c.cfg.toggleCheck = true ∧ false ≠ (c.bd .ep2Out).dts))
      ∧ ({ gotData [1] with ustatq := [] } : State).ustatq.length < 4 ∧ ((gotData [1]).bd .ep2Out).own = .cpu
      ∧ (st.bd .ep2Out).own = .sie ∧ (st.bd .ep2Out).stall = true := by decide
theorem witness_InTokenIsAnswered :
    let s : State := { armedData [1] true with ustatq := List.replicate 3 ⟨1, .inn⟩ }
    let st : State := { S0 with bdt := { S0.bdt with ep0In := inStalled S0.bdt.ep0In } }
    slotOf 2 .inn = some .ep2In ∧ s.pktdis = false ∧ s.ustatq.length < s.cfg.ustatDepth
      ∧ (s.bd .ep2In).own = .sie ∧ (s.bd .ep2In).stall = false
      ∧ (slotOf 0 .inn = some .ep0In ∧ st.pktdis = false ∧ (st.bd .ep0In).own = .sie ∧ (st.bd .ep0In).stall = true)
      ∧ (S0.bd .ep2In).own = .cpu := by decide
theorem witness_BusEventsCompleteAndSpareTheEngine :
    (Instr.busIn 0 2).format = .busev8 ∧ (gotSetup []).pktdis = true := ⟨rfl, rfl⟩

theorem memOk_gotData : MemOk (gotData [1, 0, 2]) := by unfold MemOk; decide
theorem bdtOk_gotData : BdtOk (gotData [1, 0, 2]) := by intro sl; cases sl <;> decide
/-- A row and FG's step, with a descriptor the SIE owns; and the stall release. -/
theorem witness_ProcessorSparesWhatTheSieOwns :
    (Instr.dataTokenOut).format ≠ .busev8 ∧ Instr.dataTokenOut ≠ .init
      ∧ (∃ t, exec .dataTokenOut (gotData [1, 0, 2]) = .next t ∧ t.occ = 3) ∧ ((gotData [1, 0, 2]).bd .ep0Out).own = .sie
      ∧ MemOk (gotData [1, 0, 2]) ∧ BdtOk (gotData [1, 0, 2]) ∧ bufAddrsWf (gotData [1, 0, 2]).cfg.bufAddr = true
      ∧ (∃ t, fgOutcome { ringed [1] with kfg := .read1 } = .next t ∧ t.kfg = .read2)
      ∧ (∃ t, exec (.dispatchStall false .out 0) { heldIn with stallf := true, epStall := ⟨true, false, false⟩ } = .next t
          ∧ t.bdt.ep0In.own = .cpu) ∧ heldIn.bdt.ep0In.own = .sie :=
  ⟨by decide, by decide, exists_next (by decide), rfl, memOk_gotData, bdtOk_gotData, by decide,
    exists_next (by decide), exists_next (by decide), rfl⟩
/-- Over the machine's steps: a held invocation that goes on from its hold point by ISR.RUN and by one atomic step, arming
EP0 OUT while the SIE owns the data-OUT descriptor; and the stall release by a line ISR. -/
theorem witness_ProcessorSparesWhatTheSieOwns_steps :
    let held : State := { gotData [1] with
      bdt := { (gotData [1]).bdt with ep0Out := taken.bdt.ep0Out, ep2Out := S0.bdt.ep2Out }
      inisr := true, kisr := .active [.arm (.armOut 0 false), .pktdisOff, .dequeue, .ret] }
    let stalled : State := { heldIn with stallf := true, epStall := ⟨true, false, false⟩, ustatq := [], feed := [.isr] }
    isProcessorLine .isrRun = true ∧ isProcessorLine .proc = true ∧ isProcessorLine .isr = true
      ∧ (held.bd .ep2Out).own = .sie
      ∧ (∃ t, step { held with feed := [.isrRun] } = .next t ∧ t.bdt.ep0Out.own = .sie)
      ∧ (∃ t, step { held with feed := [.proc] } = .next t ∧ t.bdt.ep0Out.own = .sie)
      ∧ (stalled.bd .ep0In).own = .sie ∧ stalled.isrReady = true
      ∧ ∃ t, step stalled = .next t ∧ t.bdt.ep0In.own = .cpu :=
  ⟨rfl, rfl, rfl, rfl, exists_next (by decide), exists_next (by decide), rfl, rfl, exists_next (by decide)⟩
/-- A reception into the EP0 OUT buffer, with the data-OUT descriptor and its buffer with the CPU. -/
theorem witness_BusSparesWhatTheCpuOwns :
    (Instr.busSetup 0 0 ⟨1, 2, 3, 4, 5, 6, 7, 8⟩).format = .busev8
      ∧ (Instr.busSetup 0 0 ⟨1, 2, 3, 4, 5, 6, 7, 8⟩).wellFormed = true
      ∧ (∃ t, exec (.busSetup 0 0 ⟨1, 2, 3, 4, 5, 6, 7, 8⟩) (gotData [1, 0, 2]) = .next t ∧ t.ram.get 0x0507 = 8)
      ∧ ((gotData [1, 0, 2]).bd .ep2Out).own = .cpu ∧ MemOk (gotData [1, 0, 2]) ∧ BdtOk (gotData [1, 0, 2])
      ∧ bufAddrsWf (gotData [1, 0, 2]).cfg.bufAddr = true :=
  ⟨rfl, rfl, exists_next (by decide), rfl, memOk_gotData, bdtOk_gotData, by decide⟩
/-- A completion that stores 18 bytes from 0x0540, with the last byte stored and the first one after it. -/
theorem witness_StoredBytesAndNoOthers :
    let s := gotSetup [0x80, 0x06, 0x00, 0x01, 0x00, 0x00, 0x40, 0x00]
    Memory.wf s.ram = true ∧ s.kisr = .inactive ∧ storedLen (.dispatchTrnOut 0) s = 18
      ∧ storedIn (.dispatchTrnOut 0) s = 0x0540
      ∧ isNextWith (exec (.dispatchTrnOut 0) s) (fun t => t.ram.get 0x0551 == 0x01) = true
      ∧ bufAddr 0x0540 17 = 0x0551 ∧ s.ram.get 0x0551 = 0 := by decide
theorem witness_StepRunsTheDecodedLine :
    ({ S0 with feed := [.word .busev8 [0x09, 0, 2]] } : State).fault = none
      ∧ decode .busev8 [0x09, 0, 2] = .ok (.busIn 0 2) ∧ decode .call8 [0x01] = .ok .readCharacter
      ∧ isIsrRow .readCharacter = false ∧ S0.inisr = false ∧ S0.isrReady = false
      ∧ decode .outdone8 [0x21] = .ok .dataTokenOut ∧ isIsrRow .dataTokenOut = true ∧ (gotData [1]).isrReady = true
      ∧ decode .irq16 [0x08, 0x10] = .ok (.dispatchTrnOut 2) ∧ irqShown (.dispatchTrnOut 2) (gotData [1]) = true :=
  ⟨rfl, rfl, rfl, rfl, rfl, rfl, rfl, rfl, rfl, rfl, rfl⟩
/-- Placed words: a SETUP64 row, IRQ16 rows with and without a completion, a PID4 row, a bus event. -/
theorem witness_StepRunsTheDecodedLine_placed :
    S0.fault = none ∧ S0.inisr = false ∧ S0.gie = true ∧ S0.irq = false
      ∧ decodeTableWord 64 0x0000000000050500 = some (.setAddress h0 5 0 0)
      ∧ decodeTableWord 16 0x1408 = some (.dispatchTrnIn 2) ∧ decodeTableWord 16 0x0002 = some (.dispatchError false false .out 0)
      ∧ decodeTableWord 4 0xD = some .pidSetup ∧ decodeTableWord 8 0x10 = some .busReset :=
  ⟨rfl, rfl, rfl, rfl, rfl, rfl, rfl, rfl, rfl⟩
/-- A placed word runs as the first step after reset. -/
theorem test_placed_words :
    see (step (S0.withFetchWord 16 0x1408)) (fun t => (t.txReady, t.ustatq)) = some (true, [])
      ∧ see (step (S0.withFetchWord 64 0x0000000000850500)) (fun t => t.pendAddr) = some (some 5)
      ∧ see (step (S0.withFetchWord 16 0x0029)) (fun t => (t.rstf, t.stallf)) = some (false, true) := by decide
theorem witness_InterruptRunsTheRowOfTheFlags :
    (gotData [1]).fault = none ∧ (gotData [1]).feed = [] ∧ (gotData [1]).isrReady = true := ⟨rfl, rfl, rfl⟩
theorem witness_MaskedInterruptWaits :
    (∃ t, step { heldIn with inisr := true, kisr := .active [.arm (.stallIn 0), .ret], kfg := .read3 1 } = .next t
        ∧ t.inisr = true)
      ∧ ∃ t, step { gotData [1] with gie := false, kfg := .read5 9 } = .next t ∧ t.gie = true :=
  ⟨exists_next (by decide), exists_next (by decide)⟩
/-- A step into the ISR; a line that FG's critical section leaves without effect. -/
theorem witness_MaskedInterruptWaits_lines :
    (∃ t, step { gotData [1] with feed := [.proc] } = .next t ∧ t.inisr = true) ∧ (gotData [1]).inisr = false
      ∧ let s : State := { gotData [1] with gie := false, kfg := .read5 9, feed := [.isrStar] }
        s.kisr = .inactive ∧ s.inisr = false ∧ s.gie = false ∧ ∃ t, step s = .next t ∧ t.feed = [] :=
  ⟨exists_next (by decide), rfl, rfl, rfl, rfl, exists_next (by decide)⟩
theorem witness_FaultedAndRefusedSteps :
    ({ S0 with fault := some .armInNodata } : State).fault = some .armInNodata
      ∧ decode .call8 [0x04] = .error (.undefinedCode .call8 0x04) ∧ S0.isrReady = false ∧ S0.inisr = false
      ∧ (inIsr S0).inisr = true ∧ (gotData [1]).isrReady = true ∧ S0.kfg = .idle
      ∧ ({ S0 with kfg := .read1 } : State).kfg ≠ .idle :=
  ⟨rfl, rfl, rfl, rfl, rfl, rfl, rfl, by decide⟩
/-- Rows of the ISR without its entry condition, in each way it can fail; an IRQ16 word the registers do not show. -/
theorem witness_FaultedAndRefusedSteps_rows :
    isIsrRow (.rxCallback [7]) = true ∧ decode .call8 [0x20, 7] = .ok (.rxCallback [7])
      ∧ (Instr.clsOther 0 none).format = .classreq8 ∧ decode .irq16 [0x08, 0x14] = .ok (.dispatchTrnIn 2)
      ∧ (inIsr S0).inisr = true ∧ (S0.inisr = false ∧ S0.gie = true ∧ S0.irq = false ∧ S0.kisr = .inactive)
      ∧ ({ gotData [1] with gie := false, kfg := .read4 9 } : State).gie = false
      ∧ (gotData [1]).isrReady = true ∧ irqShown (.dispatchTrnIn 2) (gotData [1]) = false :=
  ⟨rfl, rfl, rfl, rfl, rfl, ⟨rfl, rfl, rfl, rfl⟩, rfl, rfl, rfl⟩
/-- At the limits: a packet of 64 bytes, `wLength` 1, the highest endpoint. -/
theorem witness_DecodeInvertsEncode :
    Instr.wellFormed (.busOut 127 15 true (List.replicate 64 0xFF)) = true
      ∧ Instr.wellFormed (.classData ⟨1, 31⟩ 0xFF 0xFFFF 0xFFFF 1) = true ∧ Instr.wellFormed (.epxSetup 15) = true := by
  decide
theorem witness_DecoderAgreesWithTheOpcodeTable :
    decode .outdone8 [0x2D] = .ok (.epxSetup 2)
      ∧ decode .busev8 [0x02] = .error (.undefinedCode .busev8 0x02) := ⟨rfl, rfl⟩
/-- The largest byte count the ten bits hold. -/
theorem witness_DescriptorBytesAndTheirViews : ({ S0.bdt.ep0In with cnt := 1023 } : BD).cnt < 1024 := by decide
theorem witness_RegisterBytes : (gotData [1]).ustatq = ⟨2, .out⟩ :: [] ∧ S0.ustatq = [] ∧ 7 < 8 := ⟨rfl, rfl, by decide⟩
/-- A writer of each register. -/
theorem witness_RegisterWriters :
    (∃ t, exec (.classData h0 0x20 0 0 7) taken = .next t ∧ t.ctrl ≠ taken.ctrl)
      ∧ (∃ t, exec (.clsSetLineCoding (some [1, 2, 3, 4, 5, 6, 7])) S0 = .next t ∧ t.lineCoding ≠ S0.lineCoding)
      ∧ (∃ t, exec (.rxCallback [1, 2, 3, 4, 5, 6, 7, 8, 9]) (gotData []) = .next t ∧ t.diag ≠ S0.diag ∧ t.occ ≠ 0)
      ∧ (∃ t, exec .busReset S0 = .next t ∧ t.rstf ≠ S0.rstf)
      ∧ (∃ t, exec (.busIn 0 0) { S0 with bdt := { S0.bdt with ep0In := inStalled S0.bdt.ep0In } } = .next t
          ∧ t.stallf ≠ S0.stallf)
      ∧ (∃ t, exec (.busError .dfn8ef) S0 = .next t ∧ t.ueir ≠ S0.ueir)
      ∧ (∃ t, exec (.dispatchTrnIn 0) { S0 with ustatq := [⟨0, .inn⟩] } = .next t ∧ t.ustatq ≠ [⟨0, .inn⟩])
      ∧ ∃ t, exec (.outAck 0) { taken with pktdis := true } = .next t ∧ t.pktdis ≠ true := by
  refine ⟨exists_next ?_, exists_next ?_, exists_next ?_, exists_next ?_, exists_next ?_, exists_next ?_, exists_next ?_,
    exists_next ?_⟩ <;> decide
/-- The address taken at an IN completion and cleared by a bus reset; TXREADY set by the callback and cleared by FG. -/
theorem witness_AddressAndTxReadyWriters :
    (∃ t, exec (.dispatchTrnIn 0) { S0 with pendAddr := some 5, ustatq := [⟨0, .inn⟩] } = .next t ∧ t.addr ≠ 0)
      ∧ (∃ t, exec .busReset { S0 with addr := 5 } = .next t ∧ t.addr ≠ 5)
      ∧ (∃ t, exec (.dispatchTrnIn 2) { S0 with txReady := false, ustatq := [⟨2, .inn⟩] } = .next t ∧ t.txReady ≠ false)
      ∧ (∃ t, exec .txDoneCallback { S0 with txReady := false, ustatq := [⟨2, .inn⟩] } = .next t ∧ t.txReady ≠ false)
      ∧ ∃ t, fgOutcome { S0 with kfg := .write2 [1] 0 } = .next t ∧ t.txReady ≠ true := by
  refine ⟨exists_next ?_, exists_next ?_, exists_next ?_, exists_next ?_, exists_next ?_⟩ <;> decide
/-- PENDADDR latched by the row and by the completion that decodes it; the ISR's step from the entry. -/
theorem witness_AddressAndTxReadyWriters_pending :
    (∃ t, exec (.setAddress h0 0x0085 0 0) taken = .next t ∧ t.pendAddr ≠ taken.pendAddr)
      ∧ (∃ t, exec (.dispatchTrnOut 0) (gotSetup [0x00, 0x05, 0x05, 0x00, 0x00, 0x00, 0x00, 0x00]) = .next t
          ∧ t.pendAddr ≠ (gotSetup []).pendAddr)
      ∧ (gotSetup [0x00, 0x05, 0x05, 0x00, 0x00, 0x00, 0x00, 0x00]).isrReady = true
      ∧ (∃ t, isrEnterAtom (gotSetup [0x00, 0x05, 0x05, 0x00, 0x00, 0x00, 0x00, 0x00]) = .next t ∧ t.pendAddr = some 5)
      ∧ ∃ t, isrResume (inIsr S0) = .next t ∧ t.inisr = false := by
  refine ⟨exists_next ?_, exists_next ?_, rfl, exists_next ?_, exists_next ?_⟩ <;> decide

/-- A completion waits and the next step runs it: every invariant of the state holds before. -/
theorem witness_StepKeepsStoredData :
    (∃ t, step (gotData [1, 0, 2]) = .next t ∧ t.occ = 3) ∧ MemOk (gotData [1, 0, 2]) ∧ BdtOk (gotData [1, 0, 2])
      ∧ QueueOk (gotData [1, 0, 2]) ∧ UeirOk (gotData [1, 0, 2]) ∧ ContextOk (gotData [1, 0, 2])
      ∧ GieOk (gotData [1, 0, 2]) :=
  ⟨exists_next (by decide), memOk_gotData, bdtOk_gotData, by unfold QueueOk; decide, rfl, rfl, rfl⟩
/-- Also inside an invocation and inside the critical section. -/
theorem witness_StepKeepsStoredData_contexts :
    ContextOk (inIsr S0) ∧ GieOk { S0 with gie := false, kfg := .read4 1 }
      ∧ QueueOk { S0 with ustatq := List.replicate 4 ⟨1, .inn⟩ } ∧ UeirOk { S0 with ueir := 0x9F } := by
  refine ⟨⟨rfl, by simp, rfl⟩, rfl, ?_, rfl⟩
  unfold QueueOk; decide
/-- A full ring that FG dequeues from, the cursor at its last place. -/
theorem witness_StepKeepsTheRing :
    let s : State := { S0 with rd := 7, wr := 7, occ := 8, gie := false, kfg := .read4 9 }
    RingOk s ∧ ∃ t, step s = .next t ∧ (t.rd, t.occ) = (0, 7) := by
  refine ⟨?_, exists_next (by decide)⟩
  unfold RingOk; decide
/-- A state with a held invocation, a completion and a program of public lines. -/
theorem witness_PublicProgramsNeverFault :
    let s : State :=
      { gotSetup [0x00, 0x05, 0x05, 0x00, 0x00, 0x00, 0x00, 0x00] with
        feed := [.word .busev8 [0x10], .isr, .word .call8 [0x03, 0x41], .fgRun] }
    NoFaultOk s ∧ ∃ t, step s = .next t ∧ t.rstf = true := by
  refine ⟨⟨rfl, by unfold PublicFeed; decide, rfl, rfl, ?_⟩, exists_next (by decide)⟩
  intro c hc _
  rw [List.mem_singleton.mp hc]
  rfl
theorem witness_OneTransmissionInFlight :
    let s : State := { S0 with kfg := .write3 [1] 0 1, txReady := false, feed := [.fgRun] }
    FlowOk s ∧ ∃ t, step s = .next t ∧ t.bdt.ep2In.own = .sie := by
  refine ⟨⟨by unfold PublicFeed; decide, by decide, ?_, ?_, rfl, rfl, rfl, rfl, rfl, rfl⟩, exists_next (by decide)⟩
  · intro src off h; cases h
  · intro a h; cases h
theorem witness_ArmOutNeverHolds :
    let s : State :=
      { gotSetup [0x00, 0x05, 0x05, 0x00, 0x00, 0x00, 0x00, 0x00] with
        bdt := { (gotSetup []).bdt with ep0In := heldIn.bdt.ep0In }, feed := [.isr] }
    OutOk s ∧ ∃ t, step s = .next t ∧ t.inisr = true := by
  refine ⟨⟨by unfold PublicFeed; decide, by decide, by decide, ?_, ?_⟩, exists_next (by decide)⟩
  · intro a h; cases h
  · intro k h; cases h
/-- What is left of an invocation at each of its hold points. -/
theorem witness_ArmOutNeverHolds_points :
    OutOk { gotSetup [] with inisr := true, kisr := .active [.arm (.armOut 0 true), .pktdisOff, .dequeue, .ret] }
      ∧ OutOk { gotData [] with inisr := true, kisr := .active [.arm (.armOut 2 true), .dequeue, .ret] }
      ∧ OutOk { gotSetup [] with
          inisr := true, kisr := .active [.arm (.stallIn 0), .arm (.armOut 0 false), .pktdisOff, .dequeue, .ret] } := by
  refine ⟨⟨by unfold PublicFeed; decide, by decide, by decide, ?_, ?_⟩, ⟨by unfold PublicFeed; decide, by decide, by decide, ?_, ?_⟩,
    ⟨by unfold PublicFeed; decide, by decide, by decide, ?_, ?_⟩⟩
  · intro a h; cases h
  · intro k h; cases h; exact .inl ⟨rfl, true, .inl rfl⟩
  · intro a h; cases h
  · intro k h; cases h; exact .inr ⟨rfl, true, rfl⟩
  · intro a h; cases h
  · intro k h; cases h; exact .inl ⟨rfl, false, .inr ⟨.stallIn 0, rfl, rfl⟩⟩
/-- The state a dropped request leaves. -/
theorem witness_DroppedRequestLeavesEp0Deaf :
    let s : State := { taken with ustatq := [], feed := [.word .busev8 [0x0D, 0, 0, 0x80, 6, 0, 1, 0, 0, 18, 0]] }
    (Deaf s ∧ Silent s) ∧ ∃ t, step s = .next t ∧ t.answers = [.none] := by
  have hd : Deaf { taken with ustatq := [], feed := [.word .busev8 [0x0D, 0, 0, 0x80, 6, 0, 1, 0, 0, 18, 0]] } :=
    ⟨by unfold PublicFeed; decide, rfl, by decide, fun t h => (by cases h), fun a h => (by cases h)⟩
  exact ⟨⟨hd, hd, rfl, fun a _ h => (by cases h)⟩, exists_next (by decide)⟩
/-- V41.20: an unknown standard request; V41.7: configuration index 1; string index 3, the first out of range. -/
theorem witness_DroppedRequestLeavesEp0Deaf_dropped :
    let s := gotSetup [0x80, 0x00, 0x00, 0x00, 0x00, 0x00, 0x02, 0x00]
    CanEnter s ∧ PublicFeed s ∧ s.bdt.ep0Out.own = .cpu ∧ s.bdt.ep0Out.pid = Pid.setup ∧ s.bdt.ep0In.own = .cpu
      ∧ s.ustatq = [⟨0, .out⟩] ∧ decode .setup64 (memRead s.ram s.bdt.ep0Out.adr 8) = .ok (.stdOther ⟨1, 0⟩ 0 0 0 2)
      ∧ isDropped (.stdOther ⟨1, 0⟩ 0 0 0 2) s = true ∧ isDropped (.getDescriptorConfiguration ⟨1, 0⟩ 1 0 9) s = true
      ∧ isDropped (.getDescriptorString ⟨1, 0⟩ 3 0 9) s = true ∧ isDropped (.getDescriptorString ⟨1, 0⟩ 2 0 9) s = false :=
  ⟨⟨rfl, rfl, rfl, rfl⟩, by unfold PublicFeed; decide, rfl, rfl, rfl, rfl, rfl, rfl, rfl, rfl, rfl⟩
/-- V70.3: the second SETUP's invocation holds at the first response, and the host polls. -/
theorem witness_HoldUnderPktdisNeverEnds :
    let s : State :=
      { heldIn with
        pktdis := true, inisr := true,
        kisr := .active [.arm (.armIn 0 (some [9]) 1 true), .arm (.armOut 0 false), .pktdisOff, .dequeue, .ret],
        ustatq := [⟨0, .out⟩], feed := [.word .busev8 [0x09, 0, 0]] }
    Deadlocked s ∧ ∃ t, step s = .next t ∧ t.answers = [.nak] := by
  refine ⟨⟨by unfold PublicFeed; decide, rfl, rfl, rfl, _, _, ?_, ?_, rfl⟩, exists_next (by decide)⟩ <;> rfl

end Sys2Proof.Tests
end

/-! ## Rows: everything `exec` can do

One inversion lemma per layer: a plan's own writes and operations (`RowPlans`, `IrqPlans`), a bus event (`BusRan`), a
row (`Ran`). Proofs about steps go through these and unfold no meaning again. -/

namespace Sys2Proof.Machine

open Sys2Proof.Spec0

/-! ### The meaning of a row, format by format -/

theorem exec_setup64 {i : Instr} (h : i.format = .setup64) (s : State) : exec i s = isrRow (setupPlan i) s := by
  cases i <;> cases h <;> rfl

theorem exec_outdone8 {i : Instr} (h : i.format = .outdone8) (s : State) : exec i s = isrRow (outDonePlan i) s := by
  cases i <;> cases h <;> rfl

theorem exec_irq16 {i : Instr} (h : i.format = .irq16) (s : State) : exec i s = isrInvoke (irqPlan i) s := by
  cases i <;> cases h <;> rfl

theorem exec_classreq8 {i : Instr} (h : i.format = .classreq8) (s : State) : exec i s = .next (classReqEffect i s) := by
  cases i <;> cases h <;> rfl

/-- The code a PID4 row stands for (30_encoding R72, R73). -/
def pidCode : Instr → BitVec 4
  | .pidOut => Pid.out
  | .pidIn => Pid.inn
  | .pidSof => Pid.sof
  | .pidSetup => Pid.setup
  | .pidData0 => Pid.ofToggle false
  | .pidData1 => Pid.ofToggle true
  | .pidAck => Pid.ack
  | .pidNak => Pid.nak
  | _ => Pid.stall

theorem exec_pid4 {i : Instr} (h : i.format = .pid4) (s : State) : exec i s = isrRow (planClassify (pidCode i)) s := by
  cases i <;> cases h <;> rfl

/-! ### Endpoint 0 -/

/-- The operations a handler of endpoint 0 leaves: none, the OUT re-arm, or an answer on IN and then the OUT re-arm. -/
inductive Ep0Ops : List IsrOp → Prop
  | none : Ep0Ops []
  | rearm (t : Bool) : Ep0Ops [.arm (.armOut 0 t)]
  | answer {a : ArmOp} : ArmOp.ep0In a = true → a.legal = true → Ep0Ops [.arm a, .arm (.armOut 0 false)]

theorem Ep0Ops.acknowledge : Ep0Ops acknowledge := .answer rfl rfl

theorem Ep0Ops.respond {data : List Byte} {n : Nat} (h : n ≤ Config.maxP) : Ep0Ops (respond data n) :=
  .answer rfl (by simp [ArmOp.legal, h, slotOf])

theorem deviceLen_le (w : BitVec 16) : deviceLen w ≤ Config.maxP :=
  Nat.le_trans (Nat.min_le_right _ _) (by decide)

theorem respLen_le (w : BitVec 16) (d : List Byte) : respLen w d ≤ Config.maxP :=
  Nat.le_trans (Nat.min_le_left _ _) (Nat.min_le_right _ _)

/-- A request without data stage is acknowledged; with no payload to process it writes CTRL alone (43_class_requests
R124, R125). -/
theorem planClassNodata_eq (b : Byte) (s : State) : planClassNodata b s = .ok (setupBegin s, acknowledge) := by
  simp only [planClassNodata, process_none]

/-- Everything the row of a SETUP packet plans: it writes CTRL, and PENDADDR for SET_ADDRESS. -/
theorem setupPlan_cases (i : Instr) (s : State) :
    ∃ c p ops, setupPlan i s = .ok ({ s with ctrl := c, pendAddr := p }, ops) ∧ Ep0Ops ops
      ∧ (p = s.pendAddr ∨ ∃ h wValue wIndex wLength, i = .setAddress h wValue wIndex wLength
          ∧ p = some (requestedAddress wValue)) := by
  have drop : ∃ c p ops, planDrop s = .ok ({ s with ctrl := c, pendAddr := p }, ops) ∧ Ep0Ops ops ∧ p = s.pendAddr :=
    ⟨_, _, _, rfl, .none, rfl⟩
  obtain ⟨c0, p0, ops0, hdrop, hops0, rfl⟩ := drop
  cases i
  case getDescriptorDevice h index wIndex wLength => exact ⟨_, _, _, rfl, .respond (deviceLen_le _), .inl rfl⟩
  case getDescriptorConfiguration h index wIndex wLength =>
    cases hc : s.cfg.catalog.confs[index.toNat]? with
    | none => exact ⟨_, _, _, by simpa [setupPlan, planConfiguration, hc] using hdrop, hops0, .inl rfl⟩
    | some k =>
      exact ⟨_, _, _, by simp only [setupPlan, planConfiguration, hc]; rfl, .respond (respLen_le _ _), .inl rfl⟩
  case getDescriptorString h index wIndex wLength =>
    cases hd : s.cfg.catalog.strs[index.toNat]? with
    | none => exact ⟨_, _, _, by simpa [setupPlan, planString, hd] using hdrop, hops0, .inl rfl⟩
    | some d => exact ⟨_, _, _, by simp only [setupPlan, planString, hd]; rfl, .respond (respLen_le _ _), .inl rfl⟩
  case getDescriptorDeviceQualifier => exact ⟨_, _, _, rfl, .answer rfl rfl, .inl rfl⟩
  case setAddress h wValue wIndex wLength =>
    exact ⟨_, _, _, rfl, .acknowledge, .inr ⟨h, wValue, wIndex, wLength, rfl, rfl⟩⟩
  case setConfiguration => exact ⟨_, _, _, rfl, .acknowledge, .inl rfl⟩
  case classNodata => exact ⟨_, _, _, planClassNodata_eq _ s, .acknowledge, .inl rfl⟩
  case vendorNodata => exact ⟨_, _, _, planClassNodata_eq _ s, .acknowledge, .inl rfl⟩
  case classData => exact ⟨_, _, _, rfl, .rearm _, .inl rfl⟩
  case vendorData => exact ⟨_, _, _, rfl, .rearm _, .inl rfl⟩
  all_goals exact ⟨_, _, _, hdrop, hops0, .inl rfl⟩

/-- Everything an OUT packet at endpoint 0 plans (41_control_transfer R108, 43_class_requests R126). -/
theorem planEp0Out_cases (s : State) :
    ∃ c l ops, planEp0Out s = .ok ({ s with ctrl := c, lineCoding := l }, ops) ∧ Ep0Ops ops := by
  cases hc : s.ctrl with
  | awaitingPayload req =>
    refine ⟨.awaitingRequest, (process req (some (received .ep0Out s)) s).lineCoding, _, ?_, .acknowledge⟩
    simp only [planEp0Out, hc, planClassPayload]
    rw [process_frame]
  | awaitingRequest =>
    refine ⟨.awaitingRequest, s.lineCoding, _, ?_, .rearm false⟩
    simp only [planEp0Out, hc]
    rw [← hc]

/-! ### Rows of the ISR context -/

/-- The row may end an OUT-direction completion of endpoint 0, which enables packet processing (42_dispatcher R119). -/
def EndsOut (i : Instr) : Prop := i.format = .outdone8 ∨ i.format = .irq16 ∨ i.format = .pid4

/-- The pending address a row leaves: the one before, or the address of the SET_ADDRESS it is or decodes
(41_control_transfer R102). -/
def Latches (i : Instr) (s : State) (p : Option (BitVec 7)) : Prop :=
  p = s.pendAddr
    ∨ ∃ h wValue wIndex wLength, p = some (requestedAddress wValue)
      ∧ (i = .setAddress h wValue wIndex wLength
        ∨ (decodesPacket i = true
            ∧ decodeSetup (readSetup s.ram s.bdt.ep0Out.adr) = .setAddress h wValue wIndex wLength))

/-- The arming operation a CALL8 row is (40_bdt_arming R89 to R91). -/
def armOf : Instr → Option ArmOp
  | .armOut ep t => some (.armOut ep t)
  | .armIn ep data len t => some (.armIn ep data len.toNat t)
  | .stallIn ep => some (.stallIn ep)
  | _ => none

/-- The end of `out_complete`, or nothing (42_dispatcher R119). -/
def endOps (e : Bool) : List IsrOp := if e then [.pktdisOff] else []

/-- Everything a row of the ISR context that is no dispatcher row plans from a state: the state after its own writes,
and the operations that follow. -/
inductive RowPlans (i : Instr) (s : State) : State → List IsrOp → Prop
  | nothing (e : Bool) : (e = true → EndsOut i) → RowPlans i s s (endOps e)
  | arm {a : ArmOp} : armOf i = some a → RowPlans i s s [.arm a]
  | control (e : Bool) {c : Ctrl} {p : Option (BitVec 7)} {l : LineCoding} {ops : List IsrOp} :
      servesEp0 i = true → Latches i s p → Ep0Ops ops → (e = true → EndsOut i) →
      RowPlans i s { s with ctrl := c, pendAddr := p, lineCoding := l } (ops ++ endOps e)
  | receive (d : List Byte) : receives i = true →
      RowPlans i s (rxStore d s) [.arm (.armOut 2 ((rxStore d s).outTog.get 2))]
  | sent : i = .txDoneCallback → RowPlans i s (txDone s) []

theorem setupPlan_plans {i : Instr} (h : i.format = .setup64) (s : State) :
    ∃ s1 ops, setupPlan i s = .ok (s1, ops) ∧ RowPlans i s s1 ops := by
  obtain ⟨c, p, ops, heq, hops, hp⟩ := setupPlan_cases i s
  refine ⟨_, ops, heq, ?_⟩
  have hl : Latches i s p :=
    hp.imp id fun ⟨h, v, x, y, hi, hp⟩ => ⟨h, v, x, y, hp, .inl hi⟩
  simpa [endOps] using RowPlans.control (l := s.lineCoding) (c := c) false (by simp [servesEp0, h]) hl hops (by simp)

/-- The end of an OUT-direction completion, as the handler appends it. -/
theorem outEnd_eq (endp : BitVec 4) : outEnd endp = endOps (endp == 0) := by
  by_cases h : endp = 0 <;> simp [outEnd, endOps, h]

theorem planSetupDecode_plans (s : State) :
    ∃ s1 ops, planEp0Setup s = .ok (s1, ops) ∧ RowPlans .ep0Setup s s1 ops := by
  obtain ⟨c, p, ops, heq, hops, hp⟩ := setupPlan_cases (decodeSetup (readSetup s.ram (s.bd .ep0Out).adr)) s
  refine ⟨_, _, by rw [planEp0Setup, planSetupDecode, heq]; rfl, ?_⟩
  have hl : Latches .ep0Setup s p :=
    hp.imp id fun ⟨h, v, x, y, hi, hp⟩ => ⟨h, v, x, y, hp, .inr ⟨rfl, hi⟩⟩
  exact RowPlans.control (l := s.lineCoding) true rfl hl hops fun _ => .inl rfl

theorem planEp0TokenOut_plans (s : State) :
    ∃ s1 ops, planEp0TokenOut s = .ok (s1, ops) ∧ RowPlans .ep0TokenOut s s1 ops := by
  obtain ⟨c, l, ops, heq, hops⟩ := planEp0Out_cases s
  refine ⟨_, _, by rw [planEp0TokenOut, heq]; rfl, ?_⟩
  exact RowPlans.control (p := s.pendAddr) true rfl (.inl rfl) hops fun _ => .inl rfl

theorem planNothing_plans {i : Instr} (h : EndsOut i) (endp : BitVec 4) (s : State) :
    ∃ s1 ops, outHandler endp (planNothing s) = .ok (s1, ops) ∧ RowPlans i s s1 ops :=
  ⟨s, endOps (endp == 0), by simp [outHandler, planNothing, outEnd_eq], .nothing _ fun _ => h⟩

/-- Everything an OUTDONE8 row plans (42_dispatcher R118). -/
theorem outDonePlan_plans {i : Instr} (h : i.format = .outdone8) (s : State) :
    ∃ s1 ops, outDonePlan i s = .ok (s1, ops) ∧ RowPlans i s s1 ops := by
  have he : EndsOut i := .inl h
  cases i
  case ep0Setup => exact planSetupDecode_plans s
  case ep0TokenOut => exact planEp0TokenOut_plans s
  case dataTokenOut => exact ⟨_, _, rfl, .receive _ rfl⟩
  case epxSetup endp => exact planNothing_plans he endp s
  case epxTokenOut endp => exact planNothing_plans he endp s
  case outAck endp => exact planNothing_plans he endp s
  case outOtherPid endp pid => exact planNothing_plans he endp s
  all_goals cases h

/-- What an OUTDONE8 row plans, as part of a row that runs it. -/
theorem RowPlans.of_outDone {i j : Instr} {s s1 : State} {ops : List IsrOp} (h : RowPlans j s s1 ops)
    (hj : j.format = .outdone8) (he : EndsOut i) (hserve : servesEp0 j = true → servesEp0 i = true)
    (hrec : receives j = true → receives i = true) (hdec : decodesPacket j = true → decodesPacket i = true) :
    RowPlans i s s1 ops := by
  cases h with
  | nothing e _ => exact .nothing e fun _ => he
  | arm ha => cases j <;> cases hj <;> cases ha
  | control e hs hl hops _ =>
    refine .control e (hserve hs) (hl.imp id ?_) hops fun _ => he
    rintro ⟨h, v, x, y, hp, hi | ⟨hd, hi⟩⟩
    · subst hi; cases hj
    · exact ⟨h, v, x, y, hp, .inr ⟨hdec hd, hi⟩⟩
  | receive d hr => exact .receive d (hrec hr)
  | sent hi => subst hi; cases hj

theorem decodeOutDone_format (ep pid : BitVec 4) : (decodeOutDone ep pid).format = .outdone8 := by
  revert ep pid
  decide

theorem decodeOutDone_receives {ep pid : BitVec 4} (h : receives (decodeOutDone ep pid) = true) : pid = Pid.out := by
  revert ep pid
  decide

theorem decodeOutDone_decodesPacket {ep pid : BitVec 4} (h : decodesPacket (decodeOutDone ep pid) = true) :
    ep = 0 ∧ pid = Pid.setup := by
  revert ep pid
  decide

theorem decodeOutDone_servesEp0 {ep pid : BitVec 4} (h : servesEp0 (decodeOutDone ep pid) = true) :
    pid = Pid.out ∨ pid = Pid.setup := by
  revert ep pid
  decide

theorem pidCode_out {i : Instr} (h : i.format = .pid4) (hp : pidCode i = Pid.out) : i = .pidOut := by
  cases i <;> cases h <;> revert hp <;> decide

theorem pidCode_setup {i : Instr} (h : i.format = .pid4) (hp : pidCode i = Pid.setup) : i = .pidSetup := by
  cases i <;> cases h <;> revert hp <;> decide

/-- Everything a PID4 row plans (42_dispatcher R118; log entry 7). -/
theorem planClassify_plans {i : Instr} (h : i.format = .pid4) (s : State) :
    ∃ s1 ops, planClassify (pidCode i) s = .ok (s1, ops) ∧ RowPlans i s s1 ops := by
  have nothing : ∃ s1 ops, planNothing s = .ok (s1, ops) ∧ RowPlans i s s1 ops := ⟨s, [], rfl, .nothing false (by simp)⟩
  unfold planClassify
  split
  · exact nothing
  · next c _ _ =>
    split
    · obtain ⟨s1, ops, heq, hp⟩ := outDonePlan_plans (decodeOutDone_format c.ep (pidCode i)) s
      refine ⟨s1, ops, heq, hp.of_outDone (decodeOutDone_format _ _) (.inr (.inr h)) ?_ ?_ ?_⟩
      · intro hs
        rcases decodeOutDone_servesEp0 hs with hs | hs
        · rw [pidCode_out h hs]; rfl
        · rw [pidCode_setup h hs]; rfl
      · intro hr
        rw [pidCode_out h (decodeOutDone_receives hr)]; rfl
      · intro hd
        rw [pidCode_setup h (decodeOutDone_decodesPacket hd).2]; rfl
    · exact nothing

/-! ### Dispatcher rows -/

/-- The dispatcher row serves a stall (42_dispatcher R112, R115). -/
def ReleasesStall (i : Instr) : Prop :=
  ∃ trnf dir ep, i = .dispatchStall trnf dir ep ∨ i = .dispatchError true trnf dir ep

/-- The dispatcher row of a completion (42_dispatcher R116). -/
def trnRow (c : Completion) : Instr :=
  match c.dir with
  | .inn => .dispatchTrnIn c.ep
  | .out => .dispatchTrnOut c.ep

/-- The dispatcher row serves a completion, alone or behind its error check (42_dispatcher R112, R116). -/
def Serves (i : Instr) (dir : Dir) (ep : BitVec 4) : Prop :=
  i = trnRow ⟨ep, dir⟩ ∨ i = .dispatchError false true dir ep

/-- Everything a dispatcher row plans from the state after its error check (42_dispatcher R112 to R118). -/
inductive IrqPlans (i : Instr) (s : State) : State → List IsrOp → Prop
  | reset : IrqPlans i s { s with rstf := false } []
  | release : ReleasesStall i → IrqPlans i s (onStall s) []
  | inn {ep : BitVec 4} : Serves i .inn ep → IrqPlans i s (inComplete ep s) [.dequeue]
  | out {ep : BitVec 4} {s1 : State} {ops : List IsrOp} : Serves i .out ep → RowPlans i s s1 ops →
      IrqPlans i s s1 (ops ++ [.dequeue])
  | nothing : IrqPlans i s s []

/-- The state after the dispatcher's error check: as before, or with UEIR cleared (42_dispatcher R114). -/
def ErrorChecked (s s0 : State) : Prop := s0 = s ∨ s0 = { s with ueir := 0 }

theorem planTrnOut_cases {i : Instr} {ep : BitVec 4} (h : Serves i .out ep) (s : State) :
    (∃ c, planTrnOut ep s = .error c) ∨ ∃ s1 ops, planTrnOut ep s = .ok (s1, ops) ∧ IrqPlans i s s1 ops := by
  unfold planTrnOut planOutComplete
  cases hs : slotOf ep .out with
  | none => exact .inl ⟨_, rfl⟩
  | some sl =>
    obtain ⟨s1, ops, heq, hp⟩ := outDonePlan_plans (decodeOutDone_format ep (s.bd sl).pid) s
    refine .inr ⟨s1, ops ++ [.dequeue], by simp only [heq], .out h ?_⟩
    refine hp.of_outDone (decodeOutDone_format _ _) ?_ ?_ ?_ ?_
    · rcases h with rfl | rfl <;> exact .inr (.inl rfl)
    · rcases h with rfl | rfl <;> exact fun _ => rfl
    · rcases h with rfl | rfl <;> exact fun _ => rfl
    · intro hd
      obtain ⟨rfl, -⟩ := decodeOutDone_decodesPacket hd
      rcases h with rfl | rfl <;> rfl

/-- Everything a dispatcher row plans (42_dispatcher R112). -/
theorem irqPlan_cases {i : Instr} (h : i.format = .irq16) (s : State) :
    (∃ c, irqPlan i s = .error c)
      ∨ ∃ s0 s1 ops, ErrorChecked s s0 ∧ irqPlan i s = .ok (s1, ops) ∧ IrqPlans i s0 s1 ops := by
  cases i
  case dispatchReset => exact .inr ⟨s, _, _, .inl rfl, rfl, .reset⟩
  case dispatchStall trnf dir ep => exact .inr ⟨s, _, _, .inl rfl, rfl, .release ⟨trnf, dir, ep, .inl rfl⟩⟩
  case dispatchTrnIn ep => exact .inr ⟨s, _, _, .inl rfl, rfl, .inn (.inl rfl)⟩
  case dispatchTrnOut ep =>
    exact (planTrnOut_cases (.inl rfl) s).imp id fun ⟨s1, ops, heq, hp⟩ => ⟨s, s1, ops, .inl rfl, heq, hp⟩
  case dispatchError stallf trnf dir ep =>
    cases stallf with
    | true => exact .inr ⟨_, _, _, .inr rfl, rfl, .release ⟨trnf, dir, ep, .inr rfl⟩⟩
    | false =>
      cases trnf with
      | false => exact .inr ⟨_, _, _, .inr rfl, rfl, .nothing⟩
      | true =>
        cases dir with
        | inn => exact .inr ⟨_, _, _, .inr rfl, rfl, .inn (.inr rfl)⟩
        | out =>
          exact (planTrnOut_cases (.inr rfl) { s with ueir := 0 }).imp id
            fun ⟨s1, ops, heq, hp⟩ => ⟨_, s1, ops, .inr rfl, heq, hp⟩
  all_goals cases h

end Sys2Proof.Machine

namespace Sys2Proof.Machine

open Sys2Proof.Spec0

/-! ### The rest of an invocation: one rule for both ways to run it -/

/-- An assertion `I` about what is left of an invocation and the state, and a property `R` of the state in which the
invocation stops: each operation carries `I` on, and every way to stop gives `R`. -/
structure DriveRule (I : List IsrOp → State → Prop) (R : State → Prop) : Prop where
  pktdisOff : ∀ k s, I (.pktdisOff :: k) s → I k { s with pktdis := false }
  dequeue : ∀ k s, I (.dequeue :: k) s → I k { s with ustatq := s.ustatq.tail }
  arm : ∀ a k s u, I (.arm a :: k) s → ArmOp.run a s = .done u → I k u
  stop : ∀ s, I [] s → R s
  ret : ∀ k s, I (.ret :: k) s → R s.leaveIsr
  hold : ∀ a k s, I (.arm a :: k) s → R (s.atHold a k)
  raise : ∀ s c, R s → R (s.raise c)

namespace DriveRule

variable {I : List IsrOp → State → Prop} {R : State → Prop}

theorem drive (h : DriveRule I R) : ∀ (l : List IsrOp) {b s : State}, R b → I l s → R (drive b l s)
  | [], _, s, _, hs => h.stop s hs
  | .ret :: k, _, s, _, hs => h.ret k s hs
  | .pktdisOff :: k, _, s, hb, hs => drive h k hb (h.pktdisOff k s hs)
  | .dequeue :: k, _, s, hb, hs => drive h k hb (h.dequeue k s hs)
  | .arm a :: k, b, s, hb, hs => by
    cases hr : a.run s with
    | done u =>
      rw [drive_arm_done b k hr]
      exact drive h k (h.hold a k s hs) (h.arm a k s u hs hr)
    | hold =>
      rw [drive_arm_hold b k hr]
      exact h.hold a k s hs
    | raised c =>
      rw [drive_arm_raised b k hr]
      exact h.raise b c hb

theorem segment (h : DriveRule I R) : ∀ (l : List IsrOp) {b s : State}, R b → I l s → R (segment b l s)
  | [], _, s, _, hs => h.stop s hs
  | .ret :: k, _, s, _, hs => h.ret k s hs
  | .pktdisOff :: k, _, s, hb, hs => segment h k hb (h.pktdisOff k s hs)
  | .dequeue :: k, _, s, hb, hs => segment h k hb (h.dequeue k s hs)
  | .arm a :: k, b, s, hb, hs => by
    cases hr : a.run s with
    | raised c =>
      rw [segment_arm_raised b k hr]
      exact h.raise b c hb
    | _ =>
      rw [segment_arm b k (by simp [hr])]
      exact h.hold a k s hs

/-- `ISR.RUN` (30_encoding R87). -/
theorem resume (h : DriveRule I R) {s t : State} (hr : R s) (hi : ∀ k, s.kisr = .active k → I k s)
    (ht : isrResume s = .next t) : R t := by
  unfold isrResume at ht
  split at ht
  · cases ht; exact hr
  · next k hk =>
    cases ht
    exact h.drive k hr (hi k hk)

/-- One atomic step of the ISR (92_eei_decisions D17). -/
theorem atom (h : DriveRule I R) {s : State} (hr : R s) (hi : ∀ k, s.kisr = .active k → I k s) : R (isrAtom s) := by
  unfold isrAtom
  split
  · exact hr
  · next a k hk =>
    split
    · exact h.raise s _ hr
    · next u hu => exact h.segment k hr (h.arm a k s u (hi _ hk) hu)
    · exact hr
  · next k _ hk => exact h.segment k hr (hi k hk)

end DriveRule

/-! ### Bus events -/

/-- Everything a bus event can lead to (45_sie_bus_agent R144 to R156). -/
inductive BusRan (i : Instr) (s : State) : State → Prop
  | answered (r : Answer) : BusRan i s (s.answer r)
  | stalled {ep : BitVec 4} {dir : Dir} {sl : Slot} : slotOf ep dir = some sl → (s.bd sl).own = .sie →
      (s.bd sl).stall = true → BusRan i s ((stallHandshake ep s).answer .stall)
  | setup {a : BitVec 7} {p : SetupPkt} : i = .busSetup a 0 p → s.bdt.ep0Out.own = .sie →
      s.ustatq.length < s.cfg.ustatDepth →
      BusRan i s ({ receive .ep0Out ⟨0, .out⟩ Pid.setup p.bytes s with pktdis := true }.answer .ack)
  | received {ep : BitVec 4} {sl : Slot} {d : List Byte} : slotOf ep .out = some sl → (s.bd sl).own = .sie →
      (s.bd sl).stall = false → s.ustatq.length < s.cfg.ustatDepth → (i.wellFormed = true → d.length ≤ Config.maxP) →
      BusRan i s ((receive sl ⟨ep, .out⟩ Pid.out d s).answer .ack)
  | sent {ep : BitVec 4} {sl : Slot} (r : Answer) : slotOf ep .inn = some sl → (s.bd sl).own = .sie →
      (s.bd sl).stall = false → s.ustatq.length < s.cfg.ustatDepth →
      BusRan i s ((transmit sl ⟨ep, .inn⟩ s).answer r)
  | reset : i = .busReset →
      BusRan i s ({ s with rstf := true, addr := if s.cfg.resetClearsAddr then 0 else s.addr }.answer .none)
  | error (k : ErrKind) : i = .busError k → BusRan i s ({ s with ueir := s.ueir ||| ErrKind.mask k }.answer .none)

theorem busRan_of_exec {i : Instr} {s t : State} (hf : i.format = .busev8) (h : exec i s = .next t) : BusRan i s t := by
  cases i
  case busSetup a ep p =>
    replace h : execBusSetup a ep p s = .next t := h
    rcases execBusSetup_cases a ep p s with heq | ⟨-, rfl, -, ho, hq, heq⟩ <;> rw [heq] at h <;> cases h
    · exact .answered _
    · exact .setup rfl ho hq
  case busOut a ep t' d =>
    replace h : execBusOut a ep t' d s = .next t := h
    rcases execBusOut_cases a ep t' d s with ⟨r, -, heq⟩ | ⟨sl, hs, ho, hst, -, heq⟩ | ⟨sl, hs, ho, hst, -, hq, heq⟩ <;>
      rw [heq] at h <;> cases h
    · exact .answered r
    · exact .stalled hs ho hst
    · exact .received hs ho hst hq (by simp [Instr.wellFormed])
  case busIn a ep =>
    replace h : execBusIn a ep s = .next t := h
    rcases execBusIn_cases a ep s with ⟨r, -, heq⟩ | ⟨sl, hs, ho, hst, -, heq⟩ | ⟨sl, hs, ho, hst, -, hq, heq⟩ <;>
      rw [heq] at h <;> cases h
    · exact .answered r
    · exact .stalled hs ho hst
    · exact .sent _ hs ho hst hq
  case busReset => cases h; exact .reset rfl
  case busError k => cases h; exact .error k rfl
  all_goals cases hf

/-! ### Rows -/

/-- Where a rule of the ISR context starts, and what is left of the invocation behind it: inside the one in progress, or
at an entry under the entry condition (42_dispatcher R111). -/
inductive InIsr (s : State) : State → List IsrOp → Prop
  | inside {k : List IsrOp} : s.kisr = .active k → InIsr s s k
  | entry : s.isrReady = true → InIsr s s.enterIsr [.ret]

theorem isrInvoke_cases {plan : State → Plan} {s t : State} (h : isrInvoke plan s = .next t) :
    s.isrReady = true ∧ ((∃ s1 ops, plan s.enterIsr = .ok (s1, ops) ∧ t = drive s (ops ++ [.ret]) s1)
      ∨ ∃ c, t = s.raise c) := by
  obtain ⟨hr, h⟩ := isrInvoke_next h
  refine ⟨hr, ?_⟩
  rcases runPlan_cases s (plan s.enterIsr) [.ret] with ⟨s1, ops, hp, heq⟩ | ⟨c, -, heq⟩ <;> rw [heq] at h <;> cases h
  · exact .inl ⟨s1, ops, hp, rfl⟩
  · exact .inr ⟨c, rfl⟩

theorem isrRow_cases {plan : State → Plan} {s t : State} (h : isrRow plan s = .next t) :
    ∃ s0 rest, InIsr s s0 rest ∧ ((∃ s1 ops, plan s0 = .ok (s1, ops) ∧ t = drive s (ops ++ rest) s1)
      ∨ ∃ c, t = s.raise c) := by
  cases hk : s.kisr with
  | inactive =>
    rw [isrRow_of_inactive hk] at h
    obtain ⟨hr, h⟩ := isrInvoke_cases h
    exact ⟨_, _, .entry hr, h⟩
  | active k =>
    rw [isrRow_of_active hk] at h
    refine ⟨_, _, .inside hk, ?_⟩
    rcases runPlan_cases s (plan s) k with ⟨s1, ops, hp, heq⟩ | ⟨c, -, heq⟩ <;> rw [heq] at h <;> cases h
    · exact .inl ⟨s1, ops, hp, rfl⟩
    · exact .inr ⟨c, rfl⟩

/-- The line at which a call of FG starts (44_byte_stream R135, R137, 40_bdt_arming R93). -/
def CallStart (i : Instr) (k : KFg) : Prop :=
  k = .read1 ∨ (∃ src, k = writeFrom src 0) ∨ ∃ a, armOf i = some a ∧ k = .arm a

/-- Everything `exec` can lead to. -/
inductive Ran (i : Instr) (s : State) : State → Prop
  | bus {t : State} : i.format = .busev8 → BusRan i s t → Ran i s t
  | process {l : LineCoding} : (l = s.lineCoding ∨ ∃ payload, i = .clsSetLineCoding payload) →
      Ran i s { s with lineCoding := l }
  | init : i = .init → Ran i s (initContexts (initArms (initRegisters s)))
  | call {k : KFg} {t : State} : CallStart i k → FgFree s → fgStep { s with kfg := k } = .moved t → Ran i s t
  | callHeld {k : KFg} : CallStart i k → FgFree s → Ran i s { s with kfg := k }
  | row {s0 s1 : State} {rest ops : List IsrOp} : i.format ≠ .irq16 → InIsr s s0 rest → RowPlans i s0 s1 ops →
      Ran i s (drive s (ops ++ rest) s1)
  | irq {s0 s1 : State} {ops : List IsrOp} : i.format = .irq16 → s.isrReady = true → ErrorChecked s.enterIsr s0 →
      IrqPlans i s0 s1 ops → Ran i s (drive s (ops ++ [.ret]) s1)
  | faulted (c : Fault) : Ran i s (s.raise c)

theorem fgCall_ran {i : Instr} {k : KFg} {s t : State} (hk : CallStart i k) (h : fgCall k s = .next t) : Ran i s t := by
  unfold fgCall at h
  split at h
  · cases h
  next hi =>
  split at h
  · cases h
  next hr =>
  split at h
  · next hidle =>
    have hfree : FgFree s := ⟨by simpa using hi, by simpa using hr, hidle⟩
    split at h
    · next u hu => cases h; exact .call hk hfree hu
    · cases h; exact .callHeld hk hfree
    · cases h; exact .faulted _
  · cases h

theorem isrRow_ran {i : Instr} {plan : State → Plan} {s t : State} (hf : i.format ≠ .irq16)
    (hp : ∀ s, ∃ s1 ops, plan s = .ok (s1, ops) ∧ RowPlans i s s1 ops) (h : isrRow plan s = .next t) : Ran i s t := by
  obtain ⟨s0, rest, hin, ⟨s1, ops, heq, rfl⟩ | ⟨c, rfl⟩⟩ := isrRow_cases h
  · obtain ⟨s1', ops', heq', hp'⟩ := hp s0
    rw [heq] at heq'
    cases heq'
    exact .row hf hin hp'
  · exact .faulted c

theorem execArm_ran {i : Instr} {a : ArmOp} {s t : State} (hf : i.format ≠ .irq16) (ha : armOf i = some a)
    (h : execArm a s = .next t) : Ran i s t := by
  unfold execArm at h
  split at h
  · exact isrRow_ran hf (fun u => ⟨u, _, rfl, .arm ha⟩) h
  · exact fgCall_ran (.inr (.inr ⟨a, ha, rfl⟩)) h

theorem classReqEffect_eq {i : Instr} (s : State) :
    ∃ l, classReqEffect i s = { s with lineCoding := l }
      ∧ (l = s.lineCoding ∨ ∃ payload, i = .clsSetLineCoding payload) := by
  cases i
  case clsSetLineCoding payload =>
    simp only [classReqEffect, processSetLineCoding]
    split
    · exact ⟨s.lineCoding, rfl, .inl rfl⟩
    · exact ⟨_, rfl, .inr ⟨payload, rfl⟩⟩
  all_goals exact ⟨s.lineCoding, rfl, .inl rfl⟩

theorem execInit_next {s t : State} (h : execInit s = .next t) : t = initContexts (initArms (initRegisters s)) := by
  unfold execInit at h
  split at h <;> cases h
  rfl

/-- Everything a row can do. -/
theorem exec_ran {i : Instr} {s t : State} (h : exec i s = .next t) : Ran i s t := by
  cases hf : i.format with
  | setup64 =>
    rw [exec_setup64 hf] at h
    exact isrRow_ran (by simp [hf]) (setupPlan_plans hf) h
  | outdone8 =>
    rw [exec_outdone8 hf] at h
    exact isrRow_ran (by simp [hf]) (outDonePlan_plans hf) h
  | pid4 =>
    rw [exec_pid4 hf] at h
    exact isrRow_ran (by simp [hf]) (planClassify_plans hf) h
  | classreq8 =>
    rw [exec_classreq8 hf] at h
    obtain ⟨l, heq, hl⟩ := classReqEffect_eq (i := i) s
    rw [heq] at h
    cases h
    exact .process hl
  | irq16 =>
    rw [exec_irq16 hf] at h
    obtain ⟨hr, ⟨s1, ops, heq, rfl⟩ | ⟨c, rfl⟩⟩ := isrInvoke_cases h
    · rcases irqPlan_cases hf s.enterIsr with ⟨c, hc⟩ | ⟨s0, s1', ops', hs0, heq', hp⟩
      · rw [heq] at hc; cases hc
      · rw [heq] at heq'
        cases heq'
        exact .irq hf hr hs0 hp
    · exact .faulted c
  | busev8 => exact .bus hf (busRan_of_exec hf h)
  | call8 =>
    cases i
    case init => rw [execInit_next h]; exact .init rfl
    case readCharacter => exact fgCall_ran (.inl rfl) h
    case writeCharacter b => exact fgCall_ran (.inr (.inl ⟨[b], rfl⟩)) h
    case writeString src => exact fgCall_ran (.inr (.inl ⟨src, rfl⟩)) h
    case armOut ep t => exact execArm_ran (by simp [hf]) rfl h
    case armIn ep data len t => exact execArm_ran (by simp [hf]) rfl h
    case stallIn ep => exact execArm_ran (by simp [hf]) rfl h
    case rxCallback d => exact isrRow_ran (by simp [hf]) (fun u => ⟨_, _, rfl, .receive d rfl⟩) h
    case txDoneCallback => exact isrRow_ran (by simp [hf]) (fun u => ⟨_, _, rfl, .sent rfl⟩) h
    all_goals cases hf

/-! ### The ISR's entry -/

theorem irq_of_isrReady {s : State} (h : s.isrReady = true) : s.irq = true := by
  simp only [State.isrReady, Bool.and_eq_true] at h
  obtain ⟨⟨hirq, -⟩, -⟩ := h
  exact hirq

/-- The dispatcher's row, by the priority of the flags (42_dispatcher R112). -/
theorem irqRow_cases (s : State) :
    let c := s.ustatq.headD ⟨0, .out⟩
    (s.rstf = true ∧ irqRow s = .dispatchReset (s.ueir != 0) s.stallf (s.ustatq != []) c.dir c.ep)
      ∨ (s.rstf = false ∧ s.ueir ≠ 0 ∧ irqRow s = .dispatchError s.stallf (s.ustatq != []) c.dir c.ep)
      ∨ (s.rstf = false ∧ s.ueir = 0 ∧ s.stallf = true ∧ irqRow s = .dispatchStall (s.ustatq != []) c.dir c.ep)
      ∨ (s.rstf = false ∧ s.ueir = 0 ∧ s.stallf = false ∧ irqRow s = trnRow c) := by
  intro c
  generalize hi : irqRow s = i
  unfold irqRow at hi
  dsimp only at hi
  split at hi
  · next hr => exact .inl ⟨hr, hi.symm⟩
  next hr =>
  replace hr : s.rstf = false := by simpa using hr
  split at hi
  · next hu => exact .inr (.inl ⟨hr, hu, hi.symm⟩)
  next hu =>
  replace hu : s.ueir = 0 := by simpa using hu
  split at hi
  · next hs => exact .inr (.inr (.inl ⟨hr, hu, hs, hi.symm⟩))
  · next hs => exact .inr (.inr (.inr ⟨hr, hu, by simpa using hs, hi.symm⟩))

theorem trnRow_format (c : Completion) : (trnRow c).format = .irq16 := by unfold trnRow; split <;> rfl

theorem trnRow_injective {c d : Completion} (h : trnRow c = trnRow d) : c = d := by
  obtain ⟨cep, cdir⟩ := c
  obtain ⟨dep, ddir⟩ := d
  cases cdir <;> cases ddir <;> cases h <;> rfl

theorem irqRow_format (s : State) : (irqRow s).format = .irq16 := by
  rcases irqRow_cases s with ⟨-, h⟩ | ⟨-, -, h⟩ | ⟨-, -, -, h⟩ | ⟨-, -, -, h⟩ <;> rw [h]
  case inr.inr.inr => exact trnRow_format _
  all_goals rfl

/-- The word the registers show is the row of the flags (42_dispatcher R112, 30_encoding R83). -/
theorem decode_irqRecord {s : State} (h : s.isrReady = true) : decode .irq16 s.irqRecord = .ok (irqRow s) := by
  have hirq := irq_of_isrReady h
  unfold State.irq State.errf State.trnf at hirq
  have hdec : decodeIrq s.uir s.ustat = some (irqRow s) := by
    unfold decodeIrq State.uir State.ustat State.errf State.trnf
    cases hq : s.ustatq with
    | nil =>
      rcases irqRow_cases s with ⟨hr, h⟩ | ⟨hr, hu, h⟩ | ⟨hr, hu, hs, h⟩ | ⟨hr, hu, hs, h⟩ <;> rw [h] <;> simp_all
    | cons c q =>
      rcases irqRow_cases s with ⟨hr, h⟩ | ⟨hr, hu, h⟩ | ⟨hr, hu, hs, h⟩ | ⟨hr, hu, hs, h⟩ <;> rw [h]
      case inr.inr.inr => cases hd : c.dir <;> simp_all [trnRow]
      all_goals simp_all
  simp only [decode, State.irqRecord, decodeIrqRec, hdec]

/-- The dispatcher releases stalled endpoints only where STALLF is set and no reset is pending (42_dispatcher R112). -/
theorem irqRow_releasesStall {s : State} (h : ReleasesStall (irqRow s)) : s.rstf = false ∧ s.stallf = true := by
  obtain ⟨trnf, dir, ep, h⟩ := h
  rcases irqRow_cases s with ⟨-, hi⟩ | ⟨hr, -, hi⟩ | ⟨hr, -, hs, -⟩ | ⟨-, -, -, hi⟩
  · rw [hi] at h; simp at h
  · rw [hi] at h
    exact ⟨hr, by simp at h; exact h.1⟩
  · exact ⟨hr, hs⟩
  · rw [hi] at h
    unfold trnRow at h
    split at h <;> simp at h

/-- The completion a dispatcher row serves is the head of USTATQ (42_dispatcher R116). -/
theorem irqRow_serves {s : State} {dir : Dir} {ep : BitVec 4} (hready : s.isrReady = true)
    (h : Serves (irqRow s) dir ep) : s.ustatq.head? = some ⟨ep, dir⟩ := by
  have hne : s.ustatq ≠ [] ∧ s.ustatq.headD ⟨0, .out⟩ = ⟨ep, dir⟩ := by
    unfold Serves at h
    rcases irqRow_cases s with ⟨-, hi⟩ | ⟨-, -, hi⟩ | ⟨-, -, -, hi⟩ | ⟨hr, hu, hs, hi⟩ <;> rw [hi] at h
    · cases dir <;> simp [trnRow] at h
    · obtain ⟨-, hq, hdir, hep⟩ : s.stallf = false ∧ s.ustatq ≠ [] ∧ (s.ustatq.headD ⟨0, .out⟩).dir = dir
          ∧ (s.ustatq.headD ⟨0, .out⟩).ep = ep := by cases dir <;> simpa [trnRow] using h
      exact ⟨hq, by rw [← hdir, ← hep]⟩
    · cases dir <;> simp [trnRow] at h
    · have hirq := irq_of_isrReady hready
      refine ⟨by simpa [State.irq, State.errf, State.trnf, hr, hu, hs] using hirq, ?_⟩
      rcases h with h | h
      · exact trnRow_injective h
      · unfold trnRow at h
        split at h <;> cases h
  cases hq : s.ustatq with
  | nil => exact absurd hq hne.1
  | cons c q =>
    rw [hq] at hne
    exact congrArg some hne.2

theorem isrEnter_eq {s : State} (h : s.isrReady = true) : isrEnter s = exec (irqRow s) s := by
  simp only [isrEnter, decode_irqRecord h]

/-- Everything the ISR's entry as one atomic step can do. -/
theorem isrEnterAtom_cases {s t : State} (hr : s.isrReady = true) (h : isrEnterAtom s = .next t) :
    (∃ s0 s1 ops, ErrorChecked s.enterIsr s0 ∧ irqPlan (irqRow s) s.enterIsr = .ok (s1, ops)
        ∧ IrqPlans (irqRow s) s0 s1 ops ∧ t = segment s (ops ++ [.ret]) s1)
      ∨ ∃ c, irqPlan (irqRow s) s.enterIsr = .error c ∧ t = s.raise c := by
  unfold isrEnterAtom at h
  rw [decode_irqRecord hr] at h
  rcases irqPlan_cases (irqRow_format s) s.enterIsr with ⟨c, hc⟩ | ⟨s0, s1, ops, hs0, heq, hp⟩
  · simp only [hc, segmentPlan] at h
    cases h
    exact .inr ⟨c, hc, rfl⟩
  · simp only [heq, segmentPlan] at h
    cases h
    exact .inl ⟨s0, s1, ops, hs0, heq, hp, rfl⟩

end Sys2Proof.Machine

namespace Sys2Proof.Machine

open Sys2Proof.Spec0

/-! ### What the decoder gives -/

theorem decodeSetup_format (p : SetupPkt) : (decodeSetup p).format = .setup64 := by
  unfold decodeSetup
  repeat' split
  all_goals rfl

theorem decodeClassRec_format {bs : List Byte} {i : Instr} (h : decodeClassRec bs = .ok i) : i.format = .classreq8 := by
  unfold decodeClassRec decodeClassReq at h
  repeat' split at h
  all_goals cases h <;> rfl

theorem decodeIrqRec_format {bs : List Byte} {i : Instr} (h : decodeIrqRec bs = .ok i) : i.format = .irq16 := by
  unfold decodeIrqRec at h
  split at h
  · split at h
    · next hd =>
      unfold decodeIrq at hd
      simp only at hd
      cases h
      repeat' split at hd
      all_goals cases hd <;> rfl
    · cases h
  · cases h

theorem decodeOutDoneRec_format {bs : List Byte} {i : Instr} (h : decodeOutDoneRec bs = .ok i) :
    i.format = .outdone8 := by
  unfold decodeOutDoneRec at h
  split at h <;> cases h
  exact decodeOutDone_format _ _

theorem decodePidRec_format {bs : List Byte} {i : Instr} (h : decodePidRec bs = .ok i) : i.format = .pid4 := by
  unfold decodePidRec at h
  split at h
  · split at h
    · split at h
      · next hd =>
        unfold decodePid at hd
        cases h
        repeat' split at hd
        all_goals cases hd <;> rfl
      · cases h
    · cases h
  · cases h

theorem noOperands_ok {i j : Instr} {bs : List Byte} (h : noOperands i bs = .ok j) : j = i := by
  cases bs <;> cases h
  rfl

theorem decodeCallRec_format {bs : List Byte} {i : Instr} (h : decodeCallRec bs = .ok i) : i.format = .call8 := by
  unfold decodeCallRec noOperands decodeWriteCharacter decodeArmOut decodeArmIn decodeStallIn decodeRxCallback at h
  repeat' split at h
  all_goals cases h <;> rfl

theorem asPacket_ok {d d' : List Byte} (h : asPacket d = .ok d') : d'.length ≤ Config.maxP := by
  unfold asPacket at h
  split at h <;> cases h
  assumption

theorem decodeBusOut_ok {bs : List Byte} {i : Instr} (h : decodeBusOut bs = .ok i) :
    i.format = .busev8 ∧ i.wellFormed = true := by
  unfold decodeBusOut at h
  repeat' split at h
  case h_2 hd => cases h; exact ⟨rfl, by simpa [Instr.wellFormed] using asPacket_ok hd⟩
  all_goals cases h

/-- A decoded bus event is well-formed (45_sie_bus_agent R155). -/
theorem decodeBusRec_ok {bs : List Byte} {i : Instr} (h : decodeBusRec bs = .ok i) :
    i.format = .busev8 ∧ i.wellFormed = true := by
  unfold decodeBusRec at h
  split at h
  · cases h
  · split at h
    · unfold decodeBusSetup at h
      repeat' split at h
      all_goals cases h <;> exact ⟨rfl, rfl⟩
    split at h
    · exact decodeBusOut_ok h
    unfold noOperands decodeBusIn decodeBusError at h
    repeat' split at h
    all_goals cases h <;> exact ⟨rfl, rfl⟩

/-- A record is of its row's format. -/
theorem decode_format {f : Format} {bs : List Byte} {i : Instr} (h : decode f bs = .ok i) : i.format = f := by
  cases f with
  | setup64 =>
    replace h : decodeSetupRec bs = .ok i := h
    unfold decodeSetupRec at h
    split at h <;> cases h
    exact decodeSetup_format _
  | classreq8 => exact decodeClassRec_format h
  | irq16 => exact decodeIrqRec_format h
  | outdone8 => exact decodeOutDoneRec_format h
  | pid4 => exact decodePidRec_format h
  | call8 => exact decodeCallRec_format h
  | busev8 => exact (decodeBusRec_ok h).1

/-! ## Steps: everything the machine can do -/

/-- The rows a step may run: of a program line that is admitted, of the flags at the ISR's entry, of an FG line
(30_encoding R87, 42_dispatcher R111). -/
def RunsRow (s : State) (i : Instr) : Prop :=
  (∃ f bs rest, s.feed = .word f bs :: rest ∧ decode f bs = .ok i ∧ lineRefusal i s = none)
    ∨ (s.isrReady = true ∧ i = irqRow s)
    ∨ i = .readCharacter ∨ (∃ src, i = .writeString src) ∨ ∃ b, i = .writeCharacter b

/-- Everything one agent does in a step of the machine from `s`, the program lines aside: `u` is `s` with the program
that is left when the agent acts. -/
inductive Act (s u : State) : State → Prop
  | idle : Act s u u
  | row {i : Instr} {t : State} : RunsRow s i → exec i u = .next t → Act s u t
  | resume {t : State} : isrResume u = .next t → Act s u t
  | atom : Act s u (isrAtom u)
  | enterAtom {t : State} : u.isrReady = true → isrEnterAtom u = .next t → Act s u t
  | fg {t : State} : u.inisr = false → fgOutcome u = .next t → Act s u t

theorem RunsRow.wellFormed {s : State} {i : Instr} (h : RunsRow s i) (hf : i.format = .busev8) :
    i.wellFormed = true := by
  rcases h with ⟨f, bs, rest, -, hd, -⟩ | ⟨-, rfl⟩ | rfl | ⟨src, rfl⟩ | ⟨b, rfl⟩
  · obtain rfl := (decode_format hd).symm.trans hf
    exact (decodeBusRec_ok hd).2
  · simp [irqRow_format] at hf
  all_goals cases hf

/-- Whether a row may be a line does not depend on the lines after it. -/
theorem lineRefusal_setFeed (i : Instr) (s : State) (l : List Line) :
    lineRefusal i (s.setFeed l) = lineRefusal i s := by
  cases i <;> rfl

theorem isrEnter_act {s : State} {l : List Line} {t : State} (hr : s.isrReady = true)
    (h : isrEnter (s.setFeed l) = .next t) : Act s (s.setFeed l) t := by
  rw [isrEnter_eq (s := s.setFeed l) hr] at h
  exact .row (.inr (.inl ⟨hr, rfl⟩)) h

/-- Everything a moving step of FG can do, line by line (44_byte_stream R135, R137, 40_bdt_arming R93). -/
inductive FgMoves (s : State) : State → Prop
  | read1 : s.kfg = .read1 → s.occ ≠ 0 → FgMoves s { s with kfg := .read2 }
  | read2 : s.kfg = .read2 → FgMoves s { s with kfg := .read3 (s.rxbuf.getD s.rd 0) }
  | read3 {v : Byte} : s.kfg = .read3 v → FgMoves s { s with gie := false, kfg := .read4 v }
  | read4 {v : Byte} : s.kfg = .read4 v →
      FgMoves s { s with rd := (s.rd + 1) % s.cfg.rxCap, occ := s.occ - 1, kfg := .read5 v }
  | read5 {v : Byte} : s.kfg = .read5 v → FgMoves s { s with gie := true, kfg := .read6 v }
  | read6 {v : Byte} : s.kfg = .read6 v → FgMoves s { s with returned := s.returned ++ [v], kfg := .idle }
  | write1 {src : List Byte} {off : Nat} : s.kfg = .write1 src off → s.txReady = true →
      FgMoves s { s with kfg := .write2 src off }
  | write2 {src : List Byte} {off : Nat} : s.kfg = .write2 src off →
      FgMoves s { s with txReady := false, kfg := .write3 src off (chunkLen src.length off) }
  | write3 {src : List Byte} {off n : Nat} {u : State} : s.kfg = .write3 src off n →
      ArmOp.run (.armIn Config.epData (some (chunk src off n)) n (s.inTog.get Config.epData)) s = .done u →
      FgMoves s { u with kfg := .write4 src off n }
  | write4 {src : List Byte} {off n : Nat} : s.kfg = .write4 src off n →
      FgMoves s { s with inTog := { s.inTog with e2 := !s.inTog.e2 }, kfg := writeFrom src (off + n) }
  | arm {a : ArmOp} {u : State} : s.kfg = .arm a → a.run s = .done u → FgMoves s { u with kfg := .idle }

theorem fgMoves {s t : State} (h : fgStep s = .moved t) : FgMoves s t := by
  rcases fgStep_moved h with ⟨hk, ho, rfl⟩ | ⟨hk, rfl⟩ | ⟨v, hk, rfl⟩ | ⟨v, hk, rfl⟩ | ⟨v, hk, rfl⟩ | ⟨v, hk, rfl⟩
    | ⟨src, off, hk, hx, rfl⟩ | ⟨src, off, hk, rfl⟩ | ⟨src, off, n, u, hk, hu, rfl⟩ | ⟨src, off, n, hk, rfl⟩
    | ⟨a, u, hk, hu, rfl⟩
  · exact .read1 hk ho
  · exact .read2 hk
  · exact .read3 hk
  · exact .read4 hk
  · exact .read5 hk
  · exact .read6 hk
  · exact .write1 hk hx
  · exact .write2 hk
  · exact .write3 hk hu
  · exact .write4 hk
  · exact .arm hk hu

/-- A step of FG moves, leaves the state at a hold, or records a fault (60_exceptions R158). -/
theorem fgOutcome_next {s t : State} (h : fgOutcome s = .next t) :
    fgStep s = .moved t ∨ t = s ∨ ∃ c, t = s.raise c := by
  rcases fgOutcome_cases s with ⟨u, hm, heq⟩ | ⟨-, heq⟩ | ⟨c, -, heq⟩ <;> rw [heq] at h <;> cases h
  · exact .inl hm
  · exact .inr (.inl rfl)
  · exact .inr (.inr ⟨c, rfl⟩)

theorem fgOutcome_of_moved {s t : State} (h : fgStep s = .moved t) : fgOutcome s = .next t := by simp [fgOutcome, h]

theorem fgOutcome_of_raised {s : State} {c : Fault} (h : fgStep s = .raised c) : fgOutcome s = .next (s.raise c) := by
  simp [fgOutcome, h]

/-- The program after a step: some first lines are done, and an FG line may leave FG.RUN in its place (30_encoding
R87). -/
def FeedAfter (l l' : List Line) : Prop := l' <:+ l ∨ ∃ r, r <:+ l ∧ l' = .fgRun :: r

theorem procStep_act {s t : State} (h : procStep s = .next t) : Act s s t := by
  unfold procStep at h
  split at h
  · next hr =>
    rw [isrEnter_eq hr] at h
    exact .row (.inr (.inl ⟨hr, rfl⟩)) h
  split at h
  · exact .resume h
  · next hi => exact .fg (by simpa using hi) h

theorem procAtom_act {s u t : State} (h : procAtom u = .next t) : Act s u t := by
  unfold procAtom at h
  split at h
  · next hr => exact .enterAtom hr h
  split at h
  · cases h; exact .atom
  · next hi => exact .fg (by simpa using hi) h

theorem wordLine_act {s t : State} {f : Format} {bs : List Byte} {rest : List Line} (hs : s.feed = .word f bs :: rest)
    (h : wordLine f bs (s.setFeed rest) = .next t) : Act s (s.setFeed rest) t := by
  unfold wordLine at h
  split at h
  · cases h
  · next i hd =>
    split at h
    · cases h
    · next hr => exact .row (.inl ⟨f, bs, rest, hs, hd, lineRefusal_setFeed i s rest ▸ hr⟩) h

/-- Everything a step can do: one agent acts, and the program goes on. -/
theorem step_act {s t : State} (h : step s = .next t) :
    s.fault = none ∧ ∃ l t0 l', Act s (s.setFeed l) t0 ∧ t = t0.setFeed l' ∧ l <:+ s.feed
      ∧ (l' = t0.feed ∨ FeedAfter s.feed l') := by
  unfold step agentStep at h
  split at h
  · cases h
  next hfault =>
  refine ⟨hfault, ?_⟩
  have keep {l : List Line} {t : State} (ha : Act s (s.setFeed l) t) (hl : l <:+ s.feed) :
      ∃ l t0 l', Act s (s.setFeed l) t0 ∧ t = t0.setFeed l' ∧ l <:+ s.feed ∧ (l' = t0.feed ∨ FeedAfter s.feed l') :=
    ⟨l, t, t.feed, ha, rfl, hl, .inl rfl⟩
  split at h
  · exact keep (l := s.feed) (procStep_act h) (List.suffix_refl _)
  next line rest hs =>
  have hrest : rest <:+ s.feed := hs ▸ List.suffix_cons line rest
  have same : s.feed <:+ s.feed := List.suffix_refl _
  have call {i : Instr} (hi : RunsRow s i) (h : fgCallLine (exec i) rest s = .next t) :
      ∃ l t0 l', Act s (s.setFeed l) t0 ∧ t = t0.setFeed l' ∧ l <:+ s.feed ∧ (l' = t0.feed ∨ FeedAfter s.feed l') := by
    obtain ⟨u, hu, rfl⟩ := fgCallLine_next.mp h
    refine ⟨s.feed, u, _, .row hi hu, rfl, same, .inr ?_⟩
    split
    · exact .inl hrest
    · exact .inr ⟨rest, hrest, rfl⟩
  cases line with
  | word f bs => exact keep (wordLine_act hs h) hrest
  | isr =>
    simp only [lineStep] at h
    split at h
    · next hr => exact keep (isrEnter_act hr h) hrest
    · cases h
  | isrStar =>
    simp only [lineStep] at h
    split at h
    · next hr => exact keep (l := s.feed) (isrEnter_act hr h) same
    · cases h; exact keep .idle hrest
  | isrRun =>
    simp only [lineStep] at h
    split at h
    · exact keep (.resume h) hrest
    · cases h
  | fgRead => exact call (.inr (.inr (.inl rfl))) h
  | fgWrite src => exact call (.inr (.inr (.inr (.inl ⟨src, rfl⟩)))) h
  | fgPutc b => exact call (.inr (.inr (.inr (.inr ⟨b, rfl⟩)))) h
  | fgRun =>
    obtain ⟨⟨hi, -, -⟩, ⟨u, hu, rfl⟩ | ⟨hu, rfl⟩ | ⟨c, hu, rfl⟩⟩ := fgRunLine_next h
    · have ha : Act s (s.setFeed s.feed) u := .fg hi (fgOutcome_of_moved hu)
      refine ⟨s.feed, u, (if u.kfg = .idle ∨ u.isrReady = true then rest else u.feed), ha, ?_, same, ?_⟩
      · split <;> rfl
      · split
        · exact .inr (.inl hrest)
        · exact .inl rfl
    · exact keep .idle hrest
    · exact keep (l := s.feed) (.fg hi (fgOutcome_of_raised hu)) same
  | proc => exact keep (procAtom_act h) hrest

end Sys2Proof.Machine

namespace Sys2Proof.Machine

open Sys2Proof.Spec0

/-! ## What the shared operations write, as one record update each -/

theorem ArmOp.run_eq {a : ArmOp} {s u : State} (h : a.run s = .done u) :
    u = { s with ram := u.ram, bdt := u.bdt, free := u.free } := by
  have hf := ArmOp.run_frame h
  cases s
  cases u
  simp only [State.exceptArm, State.mk.injEq] at hf ⊢
  simp [hf]

theorem receive_eq (sl : Slot) (c : Completion) (pid : BitVec 4) (d : List Byte) (s : State) :
    receive sl c pid d s
      = { s with
          ram := memWrite s.ram (s.bd sl).adr d, bdt := (s.setBd sl (receivedBd d.length pid (s.bd sl))).bdt,
          ustatq := s.ustatq ++ [c] } := by
  cases sl <;> rfl

theorem transmit_eq (sl : Slot) (c : Completion) (s : State) :
    transmit sl c s = { s with bdt := (s.setBd sl (sentBd (s.bd sl))).bdt, ustatq := s.ustatq ++ [c] } := by
  cases sl <;> rfl

/-- The descriptor an arming operation names. -/
def ArmOp.slot : ArmOp → Option Slot
  | .armOut ep _ => slotOf ep .out
  | .armIn ep _ _ _ | .stallIn ep => slotOf ep .inn

/-- The descriptor an arming operation leaves. -/
def ArmOp.armed : ArmOp → BD → BD
  | .armOut _ t => armedOut t
  | .armIn _ _ len t => armedIn len t
  | .stallIn _ => armedStall

theorem State.bd_setBd (s : State) (sl sl' : Slot) (b : BD) :
    (s.setBd sl b).bd sl' = if sl' = sl then b else s.bd sl' := by
  split
  · next h => rw [h, State.bd_setBd_same]
  · next h => rw [State.bd_setBd_of_ne s b h]

theorem receive_bd (sl : Slot) (c : Completion) (pid : BitVec 4) (d : List Byte) (s : State) (sl' : Slot) :
    (receive sl c pid d s).bd sl' = if sl' = sl then receivedBd d.length pid (s.bd sl) else s.bd sl' := by
  rw [← State.bd_setBd, receive_eq]
  exact State.bd_congr rfl sl'

theorem transmit_bd (sl : Slot) (c : Completion) (s : State) (sl' : Slot) :
    (transmit sl c s).bd sl' = if sl' = sl then sentBd (s.bd sl) else s.bd sl' := by
  rw [← State.bd_setBd, transmit_eq]
  exact State.bd_congr rfl sl'

theorem armBytes_length (d : List Byte) (len k : Nat) : (armBytes d len k).length = len := by
  simp only [armBytes, List.length_append, List.length_take, List.length_map, List.length_range]
  omega

/-- Everything a completed arming operation does to the descriptors and to USB RAM: it had found its descriptor with the
CPU, it writes that descriptor alone, and at most one packet into its buffer. -/
theorem ArmOp.run_done {a : ArmOp} {s u : State} (h : a.run s = .done u) :
    ∃ sl, a.slot = some sl ∧ (s.bd sl).own = .cpu ∧ (a.armed (s.bd sl)).cnt ≤ Config.maxP
      ∧ (∀ sl', u.bd sl' = if sl' = sl then a.armed (s.bd sl) else s.bd sl')
      ∧ (u.ram = s.ram ∨ ∃ d, d.length ≤ Config.maxP ∧ u.ram = memWrite s.ram (s.bd sl).adr d) := by
  cases a with
  | armOut ep t =>
    obtain ⟨sl, hs, ho, rfl⟩ := armOutRun_done h
    exact ⟨sl, hs, ho, Nat.le_refl _, fun sl' => State.bd_setBd s sl sl' _, .inl (by simp)⟩
  | armIn ep data len t =>
    obtain ⟨sl, hs, ho, ⟨hlen, -⟩, rfl⟩ := armInRun_done h
    cases data with
    | none => exact ⟨sl, hs, ho, hlen, fun sl' => State.bd_setBd s sl sl' _, .inl (by simp [armInDone])⟩
    | some d =>
      refine ⟨sl, hs, ho, hlen, fun sl' => ?_, .inr ⟨armBytes d len s.free, ?_, by simp [armInDone]⟩⟩
      · simp only [armInDone, State.bd_setBd, State.bd_setFree, State.bd_setRam, ArmOp.armed]
      · rw [armBytes_length]; exact hlen
  | stallIn ep =>
    obtain ⟨sl, hs, ho, rfl⟩ := stallInRun_done h
    exact ⟨sl, hs, ho, Nat.zero_le _, fun sl' => State.bd_setBd s sl sl' _, .inl (by simp)⟩

/-! ## Properties kept by every step

A property of the state is kept by every step once each elementary write keeps it. A write the property does not read
keeps it by definition, which is each field's default; a proof gives the other fields. -/

/-- `P` is kept by the writes of the ISR context. -/
structure IsrKept (P : State → Prop) : Prop where
  arm : ∀ a s u, P s → ArmOp.run a s = .done u → P u := by intro a s u h hr; rw [ArmOp.run_eq hr]; exact h
  control : ∀ s c p l, P s → P { s with ctrl := c, pendAddr := p, lineCoding := l } := by intros; assumption
  receive : ∀ d s, P s → P (rxStore d s) := by intro d s h; rw [rxStore_frame]; exact h
  sent : ∀ s, P s → P { s with txReady := true } := by intros; assumption
  address : ∀ s a, P s → P { s with addr := a, pendAddr := none } := by intros; assumption
  rstf : ∀ s, P s → P { s with rstf := false } := by intros; assumption
  ueir : ∀ s, P s → P { s with ueir := 0 } := by intros; assumption
  release : ∀ s, P s → P (onStall s) := by intro s h; rw [onStall_eq]; exact h
  pktdis : ∀ s, P s → P { s with pktdis := false } := by intros; assumption
  dequeue : ∀ s, P s → P { s with ustatq := s.ustatq.tail } := by intros; assumption
  context : ∀ s b k, P s → P { s with inisr := b, kisr := k } := by intros; assumption
  raise : ∀ s c, P s → P (s.raise c) := by intros; assumption

/-- `P` is kept by the writes of a bus event. -/
structure BusKept (P : State → Prop) : Prop where
  answer : ∀ s r, P s → P (s.answer r) := by intros; assumption
  stalled : ∀ s ep dir sl, slotOf ep dir = some sl → (s.bd sl).own = .sie → (s.bd sl).stall = true → P s →
    P (stallHandshake ep s) := by intros; assumption
  received : ∀ s ep sl pid d, slotOf ep .out = some sl → (s.bd sl).own = .sie → s.ustatq.length < s.cfg.ustatDepth →
    d.length ≤ Config.maxP → P s → P (receive sl ⟨ep, .out⟩ pid d s) := by intros; rw [receive_eq]; assumption
  transmitted : ∀ s ep sl, slotOf ep .inn = some sl → (s.bd sl).own = .sie → s.ustatq.length < s.cfg.ustatDepth →
    P s → P (transmit sl ⟨ep, .inn⟩ s) := by intros; rw [transmit_eq]; assumption
  pktdisOn : ∀ s, P s → P { s with pktdis := true } := by intros; assumption
  reset : ∀ s a, P s → P { s with rstf := true, addr := a } := by intros; assumption
  error : ∀ s k, P s → P { s with ueir := s.ueir ||| ErrKind.mask k } := by intros; assumption

/-- `P` is kept by every elementary write of the machine. -/
structure Kept (P : State → Prop) : Prop extends IsrKept P, BusKept P where
  fg : ∀ s t, P s → fgStep s = .moved t → P t
  call : ∀ i s k, CallStart i k → FgFree s → P s → P { s with kfg := k } := by intros; assumption
  init : ∀ s, P s → P (initContexts (initArms (initRegisters s)))

section Kept

variable {P : State → Prop}

theorem IsrKept.driveRule (h : IsrKept P) : DriveRule (fun _ => P) P where
  pktdisOff _ := h.pktdis
  dequeue _ := h.dequeue
  arm a _ := h.arm a
  stop _ := id
  ret _ s hs := h.context s _ _ hs
  hold _ _ s hs := h.context s _ _ hs
  raise := h.raise

theorem IsrKept.inIsr (h : IsrKept P) {s s0 : State} {rest : List IsrOp} (hi : InIsr s s0 rest) (hs : P s) : P s0 := by
  cases hi with
  | inside => exact hs
  | entry => exact h.context s _ _ hs

theorem IsrKept.rowPlans (h : IsrKept P) {i : Instr} {s s1 : State} {ops : List IsrOp} (hr : RowPlans i s s1 ops)
    (hs : P s) : P s1 := by
  cases hr with
  | nothing => exact hs
  | arm => exact hs
  | control => exact h.control s _ _ _ hs
  | receive d => exact h.receive d s hs
  | sent => exact h.sent s hs

theorem IsrKept.errorChecked (h : IsrKept P) {s s0 : State} (he : ErrorChecked s s0) (hs : P s) : P s0 := by
  rcases he with rfl | rfl
  · exact hs
  · exact h.ueir s hs

theorem IsrKept.inComplete (h : IsrKept P) (ep : BitVec 4) {s : State} (hs : P s) : P (inComplete ep s) := by
  rcases inComplete_cases ep s with ⟨a, -, heq⟩ | ⟨-, -, heq⟩ | ⟨-, -, heq⟩ <;> rw [heq]
  · exact h.address s a hs
  · exact h.sent s hs
  · exact hs

theorem IsrKept.irqPlans (h : IsrKept P) {i : Instr} {s s1 : State} {ops : List IsrOp} (hr : IrqPlans i s s1 ops)
    (hs : P s) : P s1 := by
  cases hr with
  | reset => exact h.rstf s hs
  | release => exact h.release s hs
  | inn => exact h.inComplete _ hs
  | out _ hp => exact h.rowPlans hp hs
  | nothing => exact hs

theorem setupBytes_length (p : SetupPkt) : p.bytes.length ≤ Config.maxP := by simp [SetupPkt.bytes, Config.maxP]

theorem BusKept.busRan (h : BusKept P) {i : Instr} {s t : State} (hb : BusRan i s t) (hw : i.wellFormed = true)
    (hs : P s) : P t := by
  cases hb with
  | answered r => exact h.answer s r hs
  | stalled hsl ho hst => exact h.answer _ _ (h.stalled s _ _ _ hsl ho hst hs)
  | @setup _ p _ ho hq =>
    exact h.answer _ _ (h.pktdisOn _ (h.received s 0 .ep0Out _ _ rfl ho hq (setupBytes_length p) hs))
  | received hsl ho _ hq hd => exact h.answer _ _ (h.received s _ _ _ _ hsl ho hq (hd hw) hs)
  | sent r hsl ho _ hq => exact h.answer _ _ (h.transmitted s _ _ hsl ho hq hs)
  | reset => exact h.answer _ _ (h.reset s _ hs)
  | error k => exact h.answer _ _ (h.error s k hs)

theorem Kept.ran (h : Kept P) {i : Instr} {s t : State} (hr : Ran i s t)
    (hw : i.format = .busev8 → i.wellFormed = true) (hs : P s) : P t := by
  cases hr with
  | bus hf hb => exact h.busRan hb (hw hf) hs
  | process => exact h.control s s.ctrl s.pendAddr _ hs
  | init => exact h.init s hs
  | call hk hi hm => exact h.fg _ _ (h.call i s _ hk hi hs) hm
  | callHeld hk hi => exact h.call i s _ hk hi hs
  | row _ hin hp => exact h.driveRule.drive _ hs (h.rowPlans hp (h.inIsr hin hs))
  | irq _ hr he hp => exact h.driveRule.drive _ hs (h.irqPlans hp (h.errorChecked he (h.inIsr (.entry hr) hs)))
  | faulted c => exact h.raise s c hs

theorem Kept.fgOutcome (h : Kept P) {s t : State} (ho : fgOutcome s = .next t) (hs : P s) : P t := by
  rcases fgOutcome_next ho with hm | rfl | ⟨c, rfl⟩
  · exact h.fg s _ hs hm
  · exact hs
  · exact h.raise s c hs

theorem IsrKept.enterAtom (h : IsrKept P) {s t : State} (hr : s.isrReady = true) (ht : isrEnterAtom s = .next t)
    (hs : P s) : P t := by
  rcases isrEnterAtom_cases hr ht with ⟨s0, s1, ops, he, -, hp, rfl⟩ | ⟨c, -, rfl⟩
  · exact h.driveRule.segment _ hs (h.irqPlans hp (h.errorChecked he (h.inIsr (.entry hr) hs)))
  · exact h.raise s c hs

theorem Kept.act (h : Kept P) {s u t : State} (ha : Act s u t) (hs : P u) : P t := by
  cases ha with
  | idle => exact hs
  | row hi he => exact h.ran (exec_ran he) hi.wellFormed hs
  | resume hr => exact h.driveRule.resume hs (fun _ _ => hs) hr
  | atom => exact h.driveRule.atom hs fun _ _ => hs
  | enterAtom hr he => exact h.enterAtom hr he hs
  | fg _ ho => exact h.fgOutcome ho hs

/-- A property kept by every elementary write, and that reads no program line, is kept by every step. -/
theorem Kept.step (h : Kept P) (hfeed : ∀ s l, P s → P (s.setFeed l)) {s t : State} (ht : step s = .next t)
    (hs : P s) : P t := by
  obtain ⟨-, l, t0, l', ha, rfl, -, -⟩ := step_act ht
  exact hfeed _ l' (h.act ha (hfeed s l hs))

/-- A step of FG keeps what arming keeps and no register of FG's enters. -/
theorem fgStep_keeps (harm : ∀ a s u, P s → ArmOp.run a s = .done u → P u)
    (hregs : ∀ s g k r o v x y, P s →
      P { s with gie := g, kfg := k, rd := r, occ := o, returned := v, txReady := x, inTog := y } := by
        intros; assumption)
    {s t : State} (hs : P s) (h : fgStep s = .moved t) : P t := by
  cases fgMoves h with
  | write3 _ hu => exact hregs _ _ _ _ _ _ _ _ (harm _ s _ hs hu)
  | arm _ hu => exact hregs _ _ _ _ _ _ _ _ (harm _ s _ hs hu)
  | _ => exact hregs s _ _ _ _ _ _ _ hs

/-- INIT's two arms keep what arming keeps. -/
theorem IsrKept.initArms (h : IsrKept P) {s : State} (hs : P s) : P (initArms s) := h.driveRule.drive _ hs hs

end Kept

end Sys2Proof.Machine

namespace Sys2Proof.Machine

open Sys2Proof.Spec0

/-! ## The stored data: memory, descriptors, queue, UEIR, contexts, GIE, parameters -/

theorem isrKept_memOk : IsrKept MemOk where
  arm _ _ _ hs hr := ArmOp.run_memOk hr hs

theorem kept_memOk : Kept MemOk where
  toIsrKept := isrKept_memOk
  received s _ sl pid d _ _ _ _ hs := by rw [receive_eq]; exact memWrite_wf _ _ hs
  fg _ _ := fgStep_keeps isrKept_memOk.arm
  init _ hs := isrKept_memOk.initArms hs

/-- A descriptor as 10_state R24 and R26 bound it. -/
def BdOk (c : Params) (sl : Slot) (b : BD) : Prop := b.cnt ≤ Config.maxP ∧ b.adr = paramAddr c sl

/-- Writing one descriptor within its bounds keeps the table within them. -/
theorem bdtOk_of_write {s u : State} {sl : Slot} {b : BD} (hs : BdtOk s) (hc : u.cfg = s.cfg) (hb : BdOk s.cfg sl b)
    (hu : ∀ sl', u.bd sl' = if sl' = sl then b else s.bd sl') : BdtOk u := by
  intro sl'
  rw [hu sl', hc]
  split
  · next h => exact h ▸ hb
  · exact hs sl'

theorem ArmOp.armed_adr (a : ArmOp) (b : BD) : (a.armed b).adr = b.adr := by cases a <;> rfl

theorem ArmOp.run_cfg {a : ArmOp} {s u : State} (h : a.run s = .done u) : u.cfg = s.cfg := by rw [ArmOp.run_eq h]

theorem isrKept_bdtOk : IsrKept BdtOk where
  arm a s u hs hr := by
    obtain ⟨sl, -, -, hcnt, hbd, -⟩ := ArmOp.run_done hr
    exact bdtOk_of_write hs (ArmOp.run_cfg hr) ⟨hcnt, by rw [ArmOp.armed_adr]; exact (hs sl).2⟩ hbd
  release s hs := by
    rw [onStall_eq]
    intro sl
    cases sl
    case ep0In => simp only [State.bd]; split <;> exact hs .ep0In
    case ep1In => simp only [State.bd]; split <;> exact hs .ep1In
    case ep2In => simp only [State.bd]; split <;> exact hs .ep2In
    case ep0Out => exact hs .ep0Out
    case ep2Out => exact hs .ep2Out

/-- INIT gives each descriptor its address and the count 0 before its arms (70_reset R176). -/
theorem bdtOk_initRegisters (s : State) : BdtOk (initRegisters s) := by
  intro sl
  cases sl <;> exact ⟨Nat.zero_le _, rfl⟩

theorem kept_bdtOk : Kept BdtOk where
  toIsrKept := isrKept_bdtOk
  received s ep sl pid d _ _ _ hd hs :=
    bdtOk_of_write hs (by rw [receive_eq]) (b := receivedBd d.length pid (s.bd sl)) ⟨hd, (hs sl).2⟩
      (receive_bd sl _ pid d s)
  transmitted s ep sl _ _ _ hs :=
    bdtOk_of_write hs (by rw [transmit_eq]) (b := sentBd (s.bd sl)) (hs sl) (transmit_bd sl _ s)
  fg _ _ := fgStep_keeps isrKept_bdtOk.arm
  init s _ := isrKept_bdtOk.initArms (bdtOk_initRegisters s)

theorem isrKept_queueOk : IsrKept QueueOk where
  dequeue s hs := by
    have hle : s.ustatq.tail.length ≤ s.ustatq.length := by simp
    exact Nat.le_trans hle hs

theorem kept_queueOk : Kept QueueOk where
  toIsrKept := isrKept_queueOk
  received s ep sl pid d _ _ hq _ _ := by
    rw [receive_eq]
    simpa [QueueOk] using hq
  transmitted s ep sl _ _ hq _ := by
    rw [transmit_eq]
    simpa [QueueOk] using hq
  fg _ _ := fgStep_keeps isrKept_queueOk.arm
  init _ hs := isrKept_queueOk.initArms (show QueueOk (initRegisters _) from Nat.zero_le _)

/-- Each error kind is a bit UEIR has (30_encoding R76). -/
theorem errKind_mask_ueie (k : ErrKind) : ErrKind.mask k &&& ~~~ueie = 0 := by cases k <;> decide

theorem isrKept_ueirOk : IsrKept UeirOk where
  ueir _ _ := by simp [UeirOk]

theorem kept_ueirOk : Kept UeirOk where
  toIsrKept := isrKept_ueirOk
  error s k hs := by
    unfold UeirOk at hs ⊢
    rw [BitVec.and_or_distrib_right, hs, errKind_mask_ueie]
    rfl
  fg _ _ := fgStep_keeps isrKept_ueirOk.arm
  init _ _ := isrKept_ueirOk.initArms (by simp [UeirOk, initRegisters])

theorem isrKept_cfg (c : Params) : IsrKept fun s => s.cfg = c where

theorem kept_cfg (c : Params) : Kept fun s => s.cfg = c where
  toIsrKept := isrKept_cfg c
  fg _ _ := fgStep_keeps (isrKept_cfg c).arm
  init _ hs := (isrKept_cfg c).initArms hs

/-! ### GIE and the critical section -/

theorem writeFrom_outside (src : List Byte) (off : Nat) :
    (writeFrom src off).critical = false ∧ (writeFrom src off).beforeDequeue = false := by
  unfold writeFrom; split <;> exact ⟨rfl, rfl⟩

/-- No call starts inside the critical section, nor before a dequeue (44_byte_stream R135). -/
theorem CallStart.outside {i : Instr} {k : KFg} (h : CallStart i k) : k.critical = false ∧ k.beforeDequeue = false := by
  rcases h with rfl | ⟨src, rfl⟩ | ⟨a, -, rfl⟩
  · exact ⟨rfl, rfl⟩
  · exact writeFrom_outside src 0
  · exact ⟨rfl, rfl⟩

/-- FG masks interrupts exactly from `DI` to `EI`. -/
theorem gieOk_fgStep {s t : State} (hs : GieOk s) (h : fgStep s = .moved t) : GieOk t := by
  have gie {a : ArmOp} {u : State} (hu : a.run s = .done u) : u.gie = s.gie := by rw [ArmOp.run_eq hu]
  unfold GieOk at hs ⊢
  cases fgMoves h with
  | read3 => rfl
  | read5 => rfl
  | write3 hk hu => rw [hk] at hs; exact (gie hu).trans hs
  | write4 hk => rw [hk] at hs; rw [(writeFrom_outside _ _).1]; exact hs
  | arm hk hu => rw [hk] at hs; exact (gie hu).trans hs
  | _ hk => rw [hk] at hs; exact hs

theorem isrKept_gieOk : IsrKept GieOk where

theorem kept_gieOk : Kept GieOk where
  toIsrKept := isrKept_gieOk
  fg _ _ := gieOk_fgStep
  call _ s k hk hf hs := by
    unfold GieOk at hs ⊢
    rw [hf.2.2] at hs
    rw [hs, hk.outside.1]
    rfl
  init _ _ := rfl

/-! ### The interrupt context -/

/-- An invocation whose return is still to come, while interrupts are not masked, stops in a consistent context. -/
theorem contextRule : DriveRule (fun l s => .ret ∈ l ∧ s.gie = true) ContextOk where
  pktdisOff _ _ h := ⟨(List.mem_cons.mp h.1).resolve_left (by simp), h.2⟩
  dequeue _ _ h := ⟨(List.mem_cons.mp h.1).resolve_left (by simp), h.2⟩
  arm a _ s u h hr := ⟨(List.mem_cons.mp h.1).resolve_left (by simp), by rw [ArmOp.run_eq hr]; exact h.2⟩
  stop _ h := absurd h.1 (by simp)
  ret _ _ _ := rfl
  hold _ _ _ h := ⟨rfl, h.1, h.2⟩
  raise _ _ h := h

theorem busKept_contextOk : BusKept ContextOk where

theorem isrKept_gie : IsrKept fun s => s.gie = true where

theorem contextOk_active {s : State} {k : List IsrOp} (h : ContextOk s) (hk : s.kisr = .active k) :
    .ret ∈ k ∧ s.gie = true := by
  unfold ContextOk at h
  rw [hk] at h
  exact h.2

/-- Outside the ISR no invocation is in progress (60_exceptions R172). -/
def IsrIdle (s : State) : Prop := s.kisr = .inactive ∧ s.inisr = false

theorem contextOk_of_isrIdle {s : State} (h : IsrIdle s) : ContextOk s := by
  unfold ContextOk
  rw [h.1]
  exact h.2

theorem isrIdle_of_contextOk {s : State} (h : ContextOk s) (hi : s.inisr = false) : IsrIdle s := by
  unfold ContextOk at h
  split at h
  · next hk => exact ⟨hk, hi⟩
  · rw [hi] at h; exact absurd h.1 (by simp)

theorem isrIdle_fgStep {s t : State} (hs : IsrIdle s) (h : fgStep s = .moved t) : IsrIdle t :=
  fgStep_keeps (fun _ _ _ h hr => by rw [ArmOp.run_eq hr]; exact h) (hs := hs) (h := h)

theorem gie_of_isrReady {s : State} (h : s.isrReady = true) : s.gie = true := by
  simp only [State.isrReady, Bool.and_eq_true] at h
  obtain ⟨⟨-, hgie⟩, -⟩ := h
  exact hgie

theorem gie_enterIsr {s : State} (h : s.isrReady = true) : s.enterIsr.gie = true := (gie_of_isrReady h : s.gie = true)

theorem contextOk_inIsr {s s0 : State} {rest : List IsrOp} (hs : ContextOk s) (h : InIsr s s0 rest) :
    .ret ∈ rest ∧ s0.gie = true := by
  cases h with
  | inside hk => exact contextOk_active hs hk
  | entry hr => exact ⟨by simp, gie_enterIsr hr⟩

theorem contextOk_ran {i : Instr} {s t : State} (hr : Ran i s t) (hw : i.format = .busev8 → i.wellFormed = true)
    (hs : ContextOk s) : ContextOk t := by
  cases hr with
  | bus hf hb => exact busKept_contextOk.busRan hb (hw hf) hs
  | process => exact hs
  | init => rfl
  | @call k _ _ hf hm =>
    have hidle : IsrIdle { s with kfg := k } := isrIdle_of_contextOk hs hf.1
    exact contextOk_of_isrIdle (isrIdle_fgStep hidle hm)
  | callHeld => exact hs
  | row _ hin hp =>
    obtain ⟨hret, hgie⟩ := contextOk_inIsr hs hin
    exact contextRule.drive _ hs ⟨List.mem_append_right _ hret, isrKept_gie.rowPlans hp hgie⟩
  | irq _ hr he hp =>
    have hgie := isrKept_gie.errorChecked he (gie_enterIsr hr)
    exact contextRule.drive _ hs ⟨by simp, isrKept_gie.irqPlans hp hgie⟩
  | faulted => exact hs

theorem contextOk_act {s u t : State} (ha : Act s u t) (hs : ContextOk u) : ContextOk t := by
  cases ha with
  | idle => exact hs
  | row hi he => exact contextOk_ran (exec_ran he) hi.wellFormed hs
  | resume hr => exact contextRule.resume hs (fun _ => contextOk_active hs) hr
  | atom => exact contextRule.atom hs fun _ => contextOk_active hs
  | enterAtom hr he =>
    rcases isrEnterAtom_cases hr he with ⟨s0, s1, ops, hs0, -, hp, rfl⟩ | ⟨c, -, rfl⟩
    · have hgie := isrKept_gie.errorChecked hs0 (gie_enterIsr hr)
      exact contextRule.segment _ hs ⟨by simp, isrKept_gie.irqPlans hp hgie⟩
    · exact hs
  | fg hi ho =>
    have hidle := isrIdle_of_contextOk hs hi
    rcases fgOutcome_next ho with hm | rfl | ⟨c, rfl⟩
    · exact contextOk_of_isrIdle (isrIdle_fgStep hidle hm)
    · exact hs
    · exact hs

theorem contextOk_step {s t : State} (ht : step s = .next t) (hs : ContextOk s) : ContextOk t := by
  obtain ⟨-, l, t0, l', ha, rfl, -, -⟩ := step_act ht
  exact (contextOk_act ha hs : ContextOk t0)

/-- Settles O53: six invariants and the parameters, each kept by every elementary write or, for the contexts, by every
act. -/
theorem stepKeepsStoredData : Obligations.StepKeepsStoredData := fun _ _ h =>
  ⟨kept_memOk.step (fun _ _ h => h) h, kept_bdtOk.step (fun _ _ h => h) h, kept_queueOk.step (fun _ _ h => h) h,
    kept_ueirOk.step (fun _ _ h => h) h, contextOk_step h, kept_gieOk.step (fun _ _ h => h) h,
    (kept_cfg _).step (fun _ _ h => h) h rfl⟩

/-! ## The ring -/

/-- The ring with one more byte: there was room, so OCC does not wrap and WR goes on by one (44_byte_stream R132). -/
theorem ringOk_push {b : Byte} {s : State} (hs : RingOk s) (hroom : s.occ.toNat < s.cfg.rxCap) :
    RingOk (ringPush b s) := by
  obtain ⟨hpos, hcap, hlen, -, hrd, hwr, -⟩ := hs
  have hocc : (s.occ + 1).toNat = s.occ.toNat + 1 := by
    rw [BitVec.toNat_add]
    exact Nat.mod_eq_of_lt (by simp; omega)
  refine ⟨hpos, hcap, by simpa [ringPush] using hlen, ?_, hrd, ?_, fun _ => ?_⟩
  · show (s.occ + 1).toNat ≤ s.cfg.rxCap
    omega
  · show (s.wr + 1) % _ = (s.rd + (s.occ + 1).toNat) % _
    rw [hocc, hwr, Nat.mod_add_mod, Nat.add_assoc]
    rfl
  · show s.occ + 1 ≠ 0
    intro h0
    rw [h0] at hocc
    simp at hocc

theorem ringOk_append : ∀ (d : List Byte) {s : State}, RingOk s → RingOk (ringAppend d s).1
  | [], _, h => h
  | b :: d, s, h => by
    by_cases hroom : s.occ.toNat < s.cfg.rxCap
    · rw [ringAppend, if_pos hroom]
      exact ringOk_append d (ringOk_push h hroom)
    · rw [ringAppend, if_neg hroom]
      exact ringOk_append d h

/-- The receive callback keeps the ring: besides appending it writes DIAG and OUTTOG (44_byte_stream R131). -/
theorem ringOk_rxStore (d : List Byte) {s : State} (h : RingOk s) : RingOk (rxStore d s) := by
  have ha := ringOk_append d h
  unfold rxStore emitOverflow
  split
  next u k heq =>
  rw [heq] at ha
  split <;> exact ha

/-- The ring with its oldest byte taken: there was one, so OCC does not wrap and RD goes on by one (44_byte_stream
R135). -/
theorem ringOk_dequeue {s : State} (v : Byte) (hs : RingOk s) (hne : s.occ ≠ 0) :
    RingOk { s with rd := (s.rd + 1) % s.cfg.rxCap, occ := s.occ - 1, kfg := .read5 v } := by
  obtain ⟨hpos, hcap, hlen, hle, hrd, hwr, -⟩ := hs
  have h0 : s.occ.toNat ≠ 0 := fun h => hne (BitVec.eq_of_toNat_eq h)
  have hocc : (s.occ - 1).toNat = s.occ.toNat - 1 := BitVec.toNat_sub_of_le (by simp [BitVec.le_def]; omega)
  refine ⟨hpos, hcap, hlen, ?_, Nat.mod_lt _ hpos, ?_, fun h => by cases h⟩
  · show (s.occ - 1).toNat ≤ s.cfg.rxCap
    omega
  · show s.wr = ((s.rd + 1) % _ + (s.occ - 1).toNat) % _
    rw [hwr, hocc, Nat.mod_add_mod]
    congr 1
    omega

/-- The ring depends on the line FG stands before only where a dequeue follows. -/
theorem ringOk_setKfg {s : State} (hs : RingOk s) {k : KFg} (hk : k.beforeDequeue = true → s.occ ≠ 0) :
    RingOk { s with kfg := k } := by
  obtain ⟨hpos, hcap, hlen, hle, hrd, hwr, -⟩ := hs
  exact ⟨hpos, hcap, hlen, hle, hrd, hwr, hk⟩

theorem ringOk_arm {a : ArmOp} {s u : State} (hs : RingOk s) (hr : a.run s = .done u) : RingOk u := by
  rw [ArmOp.run_eq hr]; exact hs

/-- FG takes a byte only after it has seen one (44_byte_stream R135). -/
theorem ringOk_fgStep {s t : State} (hs : RingOk s) (h : fgStep s = .moved t) : RingOk t := by
  have before : s.kfg.beforeDequeue = true → s.occ ≠ 0 := by
    obtain ⟨-, -, -, -, -, -, h⟩ := hs
    exact h
  have none {k : KFg} (hk : k.beforeDequeue = false) {u : State} (hu : RingOk u) : RingOk { u with kfg := k } :=
    ringOk_setKfg hu (by simp [hk])
  cases fgMoves h with
  | read1 _ ho => exact ringOk_setKfg hs fun _ => ho
  | read2 hk => exact ringOk_setKfg hs fun _ => before (by rw [hk]; rfl)
  | read3 hk => exact ringOk_setKfg hs fun _ => before (by rw [hk]; rfl)
  | read4 hk => exact ringOk_dequeue _ hs (before (by rw [hk]; rfl))
  | write3 _ hu => exact none rfl (ringOk_arm hs hu)
  | write4 => exact none (writeFrom_outside _ _).2 hs
  | arm _ hu => exact none rfl (ringOk_arm hs hu)
  | read5 => exact none (k := .read6 _) rfl hs
  | read6 => exact none (k := .idle) rfl hs
  | write1 => exact none (k := .write2 _ _) rfl hs
  | write2 => exact none (k := .write3 _ _ _) rfl hs

theorem isrKept_ringOk : IsrKept RingOk where
  receive d _ := ringOk_rxStore d

/-- INIT leaves the empty ring, with the places it has (70_reset R176). -/
theorem ringOk_init {s : State} (hs : RingOk s) : RingOk (initContexts (initArms (initRegisters s))) := by
  obtain ⟨hpos, hcap, hlen, -, -, -, -⟩ := hs
  have h0 : RingOk { initRegisters s with kfg := .idle } :=
    ⟨hpos, hcap, hlen, Nat.zero_le _, hpos, (Nat.zero_mod _).symm, fun h => by cases h⟩
  exact drive_keeps (fun u => RingOk { u with kfg := .idle }) (fun _ h => h) (fun _ h => h) (fun _ h => h)
    (fun _ _ _ h hr => by rw [ArmOp.run_eq hr]; exact h) (fun _ _ _ h => h) (fun _ _ h => h) _ h0 h0

theorem kept_ringOk : Kept RingOk where
  toIsrKept := isrKept_ringOk
  fg _ _ := ringOk_fgStep
  call _ _ _ hk _ hs := ringOk_setKfg hs (by simp [hk.outside.2])
  init _ := ringOk_init

/-- Settles O54: the ring is kept by every elementary write; the push and the dequeue are the two that move a cursor. -/
theorem stepKeepsTheRing : Obligations.StepKeepsTheRing := fun _ _ hs h => kept_ringOk.step (fun _ _ h => h) h hs

end Sys2Proof.Machine

namespace Sys2Proof.Machine

open Sys2Proof.Spec0

/-! ## Flow control of the data-IN endpoint -/

/-- The four stages a data-IN transmission may be in (44_byte_stream R142), counted: TXREADY, the descriptor with the
SIE, its completion in the queue, FG before its arm. -/
def inFlight (txReady : Bool) (bdt : Bdt) (q : List Completion) (k : KFg) : Nat :=
  one txReady + one (bdt.ep2In.own == .sie) + q.count ⟨2, .inn⟩ + one k.beforeArm

/-- What `FlowOk` says of the registers, the program and the continuation of the ISR aside. -/
structure FlowRegs (txReady : Bool) (bdt : Bdt) (q : List Completion) (k : KFg) (epStall : PerEp) : Prop where
  count : inFlight txReady bdt q k ≤ 1
  ready : ∀ src off, k = .write2 src off → txReady = true
  noArm : ∀ a, k ≠ .arm a
  ep1In : bdt.ep1In.own = .cpu
  ep2In : bdt.ep2In.stall = false
  ep2Out : bdt.ep2Out.stall = false
  stall1 : epStall.e1 = false
  stall2 : epStall.e2 = false

def FlowCore (s : State) : Prop := FlowRegs s.txReady s.bdt s.ustatq s.kfg s.epStall

theorem flowOk_iff {s : State} :
    FlowOk s ↔ PublicFeed s ∧ FlowCore s ∧ s.kisr.ops.all IsrOp.sparesDataIn = true := by
  constructor
  · rintro ⟨hp, hc, hr, ha, hk, h1, h2, h3, h4, h5⟩
    exact ⟨hp, ⟨hc, hr, ha, h1, h2, h3, h4, h5⟩, hk⟩
  · rintro ⟨hp, ⟨hc, hr, ha, h1, h2, h3, h4, h5⟩, hk⟩
    exact ⟨hp, hc, hr, ha, hk, h1, h2, h3, h4, h5⟩

/-! ### The public rows -/

/-- What a row of a public program is not (60_exceptions R164): INIT, an arming operation, the IN callback; and a
dispatcher row is the one of the flags. -/
structure PublicRow (s : State) (i : Instr) : Prop where
  notInit : i ≠ .init
  notTxDone : i ≠ .txDoneCallback
  noArm : armOf i = none
  irq : i.format = .irq16 → s.isrReady = true ∧ i = irqRow s

theorem PublicRow.of_busev8 {s : State} {i : Instr} (h : i.format = .busev8) : PublicRow s i := by
  cases i <;> cases h <;> exact ⟨by simp, by simp, rfl, by simp [Instr.format]⟩

theorem PublicRow.of_irqRow {s : State} (h : s.isrReady = true) : PublicRow s (irqRow s) := by
  have hf := irqRow_format s
  refine ⟨fun h => ?_, fun h => ?_, ?_, fun _ => ⟨h, rfl⟩⟩
  · rw [h] at hf; cases hf
  · rw [h] at hf; cases hf
  · revert hf
    generalize irqRow s = i
    intro hf
    cases i <;> cases hf <;> rfl

/-- A CALL8 line of a public program is a read or a write (60_exceptions R164). -/
theorem publicRow_of_call8 {s : State} {c : Byte} {bs : List Byte} {i : Instr}
    (hc : (c == 0x01 || c == 0x02 || c == 0x03) = true) (h : decode .call8 (c :: bs) = .ok i) : PublicRow s i := by
  replace h : decodeCallRec (c :: bs) = .ok i := h
  simp only [Bool.or_eq_true, beq_iff_eq] at hc
  rcases hc with (rfl | rfl) | rfl
  · rw [noOperands_ok (i := .readCharacter) h]
    exact ⟨by simp, by simp, rfl, by simp [Instr.format]⟩
  · replace h : decodeWriteCharacter bs = .ok i := h
    unfold decodeWriteCharacter at h
    split at h <;> cases h
    exact ⟨by simp, by simp, rfl, by simp [Instr.format]⟩
  · cases h
    exact ⟨by simp, by simp, rfl, by simp [Instr.format]⟩

theorem RunsRow.publicRow {s : State} {i : Instr} (hp : PublicFeed s) (h : RunsRow s i) : PublicRow s i := by
  rcases h with ⟨f, bs, rest, hs, hd, -⟩ | ⟨hr, rfl⟩ | rfl | ⟨src, rfl⟩ | ⟨b, rfl⟩
  · have hl : Line.isPublic (.word f bs) = true := List.all_eq_true.mp hp _ (by simp [hs])
    cases f
    case busev8 => exact .of_busev8 (decode_format hd)
    case call8 =>
      cases bs with
      | nil => cases hl
      | cons c bs => exact publicRow_of_call8 hl hd
    all_goals cases hl
  · exact .of_irqRow hr
  all_goals exact ⟨by simp, by simp, rfl, by simp [Instr.format]⟩

/-! ### The program stays public -/

theorem FeedAfter.isPublic {l l' : List Line} (h : FeedAfter l l') (hp : l.all Line.isPublic = true) :
    l'.all Line.isPublic = true := by
  have suffix {r : List Line} (hr : r <:+ l) : r.all Line.isPublic = true :=
    List.all_eq_true.mpr fun x hx => List.all_eq_true.mp hp x (hr.subset hx)
  rcases h with hr | ⟨r, hr, rfl⟩
  · exact suffix hr
  · simp [suffix hr, Line.isPublic]

theorem isrKept_feed (l : List Line) : IsrKept fun s => s.feed = l where

/-- No agent writes the program. -/
theorem kept_feed (l : List Line) : Kept fun s => s.feed = l where
  toIsrKept := isrKept_feed l
  fg _ _ := fgStep_keeps (isrKept_feed l).arm
  init _ hs := (isrKept_feed l).initArms hs

theorem step_feed {s t : State} (h : step s = .next t) : FeedAfter s.feed t.feed := by
  obtain ⟨-, l, t0, l', ha, rfl, hl, rfl | hl'⟩ := step_act h
  · exact .inl ((kept_feed l).act ha rfl ▸ hl)
  · exact hl'

theorem publicFeed_step {s t : State} (h : step s = .next t) (hs : PublicFeed s) : PublicFeed t :=
  (step_feed h).isPublic hs

/-! ### Bus events -/

theorem slotOf_out {ep : BitVec 4} {sl : Slot} (h : slotOf ep .out = some sl) :
    (ep = 0 ∧ sl = .ep0Out) ∨ (ep = 2 ∧ sl = .ep2Out) := by
  simp only [slotOf] at h
  split at h
  · next he => cases h; exact .inl ⟨he, rfl⟩
  split at h
  · next he => cases h; exact .inr ⟨he, rfl⟩
  · cases h

theorem slotOf_inn {ep : BitVec 4} {sl : Slot} (h : slotOf ep .inn = some sl) :
    (ep = 0 ∧ sl = .ep0In) ∨ (ep = 1 ∧ sl = .ep1In) ∨ (ep = 2 ∧ sl = .ep2In) := by
  simp only [slotOf] at h
  split at h
  · next he => cases h; exact .inl ⟨he, rfl⟩
  split at h
  · next he => cases h; exact .inr (.inl ⟨he, rfl⟩)
  split at h
  · next he => cases h; exact .inr (.inr ⟨he, rfl⟩)
  · cases h

/-- Only endpoint 0 has a descriptor that is with the SIE and stalled. -/
theorem flowCore_stalled {s : State} (h : FlowCore s) {ep : BitVec 4} {dir : Dir} {sl : Slot}
    (hsl : slotOf ep dir = some sl) (ho : (s.bd sl).own = .sie) (hst : (s.bd sl).stall = true) : ep = 0 := by
  cases dir with
  | out =>
    rcases slotOf_out hsl with ⟨rfl, -⟩ | ⟨-, rfl⟩
    · rfl
    · cases h.ep2Out.symm.trans hst
  | inn =>
    rcases slotOf_inn hsl with ⟨rfl, -⟩ | ⟨-, rfl⟩ | ⟨-, rfl⟩
    · rfl
    · cases h.ep1In.symm.trans ho
    · cases h.ep2In.symm.trans hst

theorem flowCore_receive {s : State} (h : FlowCore s) {ep : BitVec 4} {sl : Slot} (pid : BitVec 4) (d : List Byte)
    (hsl : slotOf ep .out = some sl) : FlowCore (receive sl ⟨ep, .out⟩ pid d s) := by
  have hq : (s.ustatq ++ [(⟨ep, .out⟩ : Completion)]).count ⟨2, .inn⟩ = s.ustatq.count ⟨2, .inn⟩ := by
    simp [List.count_append]
  have hc := h.count
  unfold inFlight at hc
  rw [← hq] at hc
  rcases slotOf_out hsl with ⟨-, rfl⟩ | ⟨-, rfl⟩ <;>
    exact ⟨hc, h.ready, h.noArm, h.ep1In, h.ep2In, h.ep2Out, h.stall1, h.stall2⟩

/-- A transmission on the data endpoint goes from "with the SIE" to "completion waiting" (45_sie_bus_agent R151). -/
theorem flowCore_transmit {s : State} (h : FlowCore s) {ep : BitVec 4} {sl : Slot} (hsl : slotOf ep .inn = some sl)
    (ho : (s.bd sl).own = .sie) : FlowCore (transmit sl ⟨ep, .inn⟩ s) := by
  have hq : (s.ustatq ++ [(⟨ep, .inn⟩ : Completion)]).count ⟨2, .inn⟩
      = s.ustatq.count ⟨2, .inn⟩ + if ep = 2 then 1 else 0 := by
    simp [List.count_append, List.count_singleton]
  have hc := h.count
  unfold inFlight at hc
  rcases slotOf_inn hsl with ⟨rfl, rfl⟩ | ⟨-, rfl⟩ | ⟨rfl, rfl⟩
  · refine ⟨?_, h.ready, h.noArm, h.ep1In, h.ep2In, h.ep2Out, h.stall1, h.stall2⟩
    show one s.txReady + _ + (s.ustatq ++ [_]).count _ + _ ≤ 1
    rw [hq]
    exact hc
  · cases h.ep1In.symm.trans ho
  · refine ⟨?_, h.ready, h.noArm, h.ep1In, h.ep2In, h.ep2Out, h.stall1, h.stall2⟩
    have ho' : one (s.bdt.ep2In.own == .sie) = 1 := by rw [show s.bdt.ep2In.own = .sie from ho]; rfl
    show one s.txReady + 0 + (s.ustatq ++ [_]).count _ + one s.kfg.beforeArm ≤ 1
    rw [hq, if_pos rfl]
    omega

theorem busKept_flowCore : BusKept FlowCore where
  stalled s ep dir sl hsl ho hst h := by
    obtain rfl := flowCore_stalled h hsl ho hst
    exact ⟨h.count, h.ready, h.noArm, h.ep1In, h.ep2In, h.ep2Out, h.stall1, h.stall2⟩
  received _ _ _ pid d hsl _ _ _ h := flowCore_receive h pid d hsl
  transmitted _ _ _ hsl ho _ h := flowCore_transmit h hsl ho

/-! ### The ISR -/

/-- A shorter queue keeps the flow. -/
theorem FlowRegs.dequeue {x : Bool} {bdt : Bdt} {q : List Completion} {k : KFg} {e : PerEp} (h : FlowRegs x bdt q k e) :
    FlowRegs x bdt q.tail k e := by
  refine { h with count := ?_ }
  have hle : q.tail.count ⟨2, .inn⟩ ≤ q.count ⟨2, .inn⟩ := (List.tail_sublist q).count_le _
  have hc := h.count
  unfold inFlight at hc ⊢
  omega

/-- An operation that spares the data endpoint's IN direction writes the IN descriptor of endpoint 0, or arms an OUT
descriptor. -/
theorem ArmOp.slot_of_spares {a : ArmOp} {sl : Slot} (h : IsrOp.sparesDataIn (.arm a) = true) (hs : a.slot = some sl) :
    sl = .ep0In ∨ ((sl = .ep0Out ∨ sl = .ep2Out) ∧ ∀ b, (a.armed b).stall = false) := by
  cases a with
  | armOut ep t => exact .inr ⟨(slotOf_out hs).imp And.right And.right, fun _ => rfl⟩
  | armIn ep data len t =>
    obtain rfl : ep = 0 := by simpa [IsrOp.sparesDataIn] using h
    cases hs
    exact .inl rfl
  | stallIn ep =>
    obtain rfl : ep = 0 := by simpa [IsrOp.sparesDataIn] using h
    cases hs
    exact .inl rfl

theorem flowCore_arm {a : ArmOp} {s u : State} (ha : IsrOp.sparesDataIn (.arm a) = true) (h : FlowCore s)
    (hr : a.run s = .done u) : FlowCore u := by
  obtain ⟨sl, hsl, -, -, hbd, -⟩ := ArmOp.run_done hr
  rw [ArmOp.run_eq hr]
  have h1 : u.bdt.ep1In = if Slot.ep1In = sl then a.armed (s.bd sl) else s.bdt.ep1In := hbd .ep1In
  have h2 : u.bdt.ep2In = if Slot.ep2In = sl then a.armed (s.bd sl) else s.bdt.ep2In := hbd .ep2In
  have h3 : u.bdt.ep2Out = if Slot.ep2Out = sl then a.armed (s.bd sl) else s.bdt.ep2Out := hbd .ep2Out
  have hne : Slot.ep1In ≠ sl ∧ Slot.ep2In ≠ sl ∧ u.bdt.ep2Out.stall = false := by
    rcases ArmOp.slot_of_spares ha hsl with rfl | ⟨rfl | rfl, hst⟩
    · exact ⟨by simp, by simp, by rw [h3]; exact h.ep2Out⟩
    · exact ⟨by simp, by simp, by rw [h3]; exact h.ep2Out⟩
    · exact ⟨by simp, by simp, by rw [h3]; exact hst _⟩
  rw [if_neg hne.1] at h1
  rw [if_neg hne.2.1] at h2
  refine ⟨?_, h.ready, h.noArm, ?_, ?_, hne.2.2, h.stall1, h.stall2⟩
  · show inFlight s.txReady u.bdt s.ustatq s.kfg ≤ 1
    unfold inFlight
    rw [h2]
    exact h.count
  · show u.bdt.ep1In.own = _
    rw [h1]
    exact h.ep1In
  · show u.bdt.ep2In.stall = _
    rw [h2]
    exact h.ep2In

/-- The state after a dequeue that comes next, if one does: an IN completion sets TXREADY just before its entry leaves
the queue (42_dispatcher R116, R117). -/
def afterDequeue : List IsrOp → State → State
  | .dequeue :: _, s => { s with ustatq := s.ustatq.tail }
  | _, s => s

theorem flowCore_afterDequeue {s : State} (h : FlowCore s) (l : List IsrOp) : FlowCore (afterDequeue l s) := by
  unfold afterDequeue
  split
  · exact FlowRegs.dequeue h
  · exact h

/-- The ISR at a point from which it keeps the flow: with the next dequeue done the flow is right, and what is left
spares the data endpoint's IN direction. -/
def FlowPoint (l : List IsrOp) (s : State) : Prop :=
  FlowCore (afterDequeue l s) ∧ l.all IsrOp.sparesDataIn = true ∧ s.kisr.ops.all IsrOp.sparesDataIn = true

theorem flowRule : DriveRule FlowPoint fun s => FlowCore s ∧ s.kisr.ops.all IsrOp.sparesDataIn = true where
  pktdisOff k s h := ⟨flowCore_afterDequeue (s := { s with pktdis := false }) h.1 k, h.2⟩
  dequeue k s h := ⟨flowCore_afterDequeue (s := { s with ustatq := s.ustatq.tail }) h.1 k, h.2⟩
  arm a k s u h hr := by
    obtain ⟨hcore, hl, hk⟩ := h
    obtain ⟨ha, hl⟩ := Bool.and_eq_true_iff.mp hl
    exact ⟨flowCore_afterDequeue (flowCore_arm ha hcore hr) k, hl, by rw [ArmOp.run_eq hr]; exact hk⟩
  stop _ h := ⟨h.1, h.2.2⟩
  ret _ _ h := ⟨h.1, rfl⟩
  hold _ _ _ h := ⟨h.1, h.2.1⟩
  raise _ _ h := h

theorem flowPoint_of_core {s : State} (h : FlowCore s) {l : List IsrOp} (hl : l.all IsrOp.sparesDataIn = true)
    (hk : s.kisr.ops.all IsrOp.sparesDataIn = true) : FlowPoint l s := ⟨flowCore_afterDequeue h l, hl, hk⟩

theorem Ep0Ops.spares {ops : List IsrOp} (h : Ep0Ops ops) : ops.all IsrOp.sparesDataIn = true := by
  cases h with
  | none => rfl
  | rearm => rfl
  | @answer a ha _ =>
    cases a with
    | armOut => cases ha
    | armIn => simpa [IsrOp.sparesDataIn, ArmOp.ep0In] using ha
    | stallIn => simpa [IsrOp.sparesDataIn, ArmOp.ep0In] using ha

theorem endOps_spares (e : Bool) : (endOps e).all IsrOp.sparesDataIn = true := by cases e <;> rfl

/-- What a row of a public program that is no dispatcher row plans keeps the flow. -/
theorem flowCore_rowPlans {i : Instr} {s s1 : State} {ops : List IsrOp} (hp : RowPlans i s s1 ops)
    (harm : armOf i = none) (htx : i ≠ .txDoneCallback) (h : FlowCore s) :
    FlowCore s1 ∧ ops.all IsrOp.sparesDataIn = true ∧ s1.kisr = s.kisr := by
  cases hp with
  | nothing e => exact ⟨h, endOps_spares e, rfl⟩
  | arm ha => rw [harm] at ha; cases ha
  | control e _ _ hops => exact ⟨h, by rw [List.all_append, hops.spares, endOps_spares]; rfl, rfl⟩
  | receive d => rw [rxStore_frame]; exact ⟨h, rfl, rfl⟩
  | sent hi => exact absurd hi htx

/-- An IN completion of the data endpoint goes from "completion waiting" to TXREADY, with the dequeue that follows it
(44_byte_stream R140). -/
theorem flowCore_inComplete {s : State} {ep : BitVec 4} (h : FlowCore s) (hq : s.ustatq.head? = some ⟨ep, .inn⟩) :
    FlowCore { inComplete ep s with ustatq := (inComplete ep s).ustatq.tail } := by
  have hdeq : FlowCore { s with ustatq := s.ustatq.tail } := FlowRegs.dequeue h
  rcases inComplete_cases ep s with ⟨a, -, heq⟩ | ⟨-, rfl, heq⟩ | ⟨-, -, heq⟩ <;> rw [heq]
  · exact hdeq
  · obtain ⟨q, hq⟩ : ∃ q, s.ustatq = ⟨2, .inn⟩ :: q := by
      cases hs : s.ustatq with
      | nil => rw [hs] at hq; cases hq
      | cons c q => rw [hs] at hq; cases hq; exact ⟨q, rfl⟩
    have hc := h.count
    unfold inFlight at hc
    rw [hq, List.count_cons_self] at hc
    refine { hdeq with count := ?_, ready := fun _ _ _ => rfl }
    show 1 + one (s.bdt.ep2In.own == .sie) + s.ustatq.tail.count _ + one s.kfg.beforeArm ≤ 1
    rw [hq, List.tail_cons]
    omega
  · exact hdeq

/-- The dispatcher's row of the flags leads to a point from which the ISR keeps the flow. -/
theorem flowPoint_irqPlans {s s0 s1 : State} {ops : List IsrOp} (hr : s.isrReady = true)
    (he : ErrorChecked s.enterIsr s0) (hp : IrqPlans (irqRow s) s0 s1 ops) (h : FlowCore s) :
    FlowPoint (ops ++ [.ret]) s1 := by
  have h0 : FlowCore s0 ∧ s0.kisr = .active [.ret] ∧ s0.ustatq = s.ustatq := by
    rcases he with rfl | rfl <;> exact ⟨h, rfl, rfl⟩
  obtain ⟨hcore, hk, hq⟩ := h0
  have hspare : s0.kisr.ops.all IsrOp.sparesDataIn = true := by rw [hk]; rfl
  have hpublic := PublicRow.of_irqRow hr
  cases hp with
  | reset => exact flowPoint_of_core (s := { s0 with rstf := false }) hcore rfl hspare
  | release =>
    rw [onStall_eq]
    refine flowPoint_of_core ?_ rfl hspare
    refine ⟨?_, hcore.ready, hcore.noArm, ?_, ?_, hcore.ep2Out, rfl, rfl⟩
    · simpa [inFlight, hcore.stall2] using hcore.count
    · simpa [hcore.stall1] using hcore.ep1In
    · simpa [hcore.stall2] using hcore.ep2In
  | inn hs =>
    refine ⟨flowCore_inComplete hcore (by rw [hq]; exact irqRow_serves hr hs), rfl, ?_⟩
    rcases inComplete_cases _ s0 with ⟨a, -, heq⟩ | ⟨-, -, heq⟩ | ⟨-, -, heq⟩ <;> rw [heq] <;> exact hspare
  | out _ hrow =>
    obtain ⟨hcore1, hops, hk1⟩ := flowCore_rowPlans hrow hpublic.noArm hpublic.notTxDone hcore
    exact flowPoint_of_core hcore1 (by simp [hops, IsrOp.sparesDataIn]) (by rw [hk1]; exact hspare)
  | nothing => exact flowPoint_of_core hcore rfl hspare

/-! ### FG -/

/-- The flow depends on the line FG stands before only at line 2 of `write_string`, its arm and an arming call. -/
theorem FlowRegs.setKfg {x : Bool} {bdt : Bdt} {q : List Completion} {k k' : KFg} {e : PerEp}
    (h : FlowRegs x bdt q k e) (harm : k'.beforeArm = false) (hready : ∀ src off, k' = .write2 src off → x = true)
    (hno : ∀ a, k' ≠ .arm a) : FlowRegs x bdt q k' e := by
  refine { h with count := ?_, ready := hready, noArm := hno }
  have hc := h.count
  unfold inFlight at hc ⊢
  rw [harm]
  exact Nat.le_trans (Nat.add_le_add_left (Nat.zero_le _) _) hc

theorem FlowRegs.writeFrom {x : Bool} {bdt : Bdt} {q : List Completion} {k : KFg} {e : PerEp}
    (h : FlowRegs x bdt q k e) (src : List Byte) (off : Nat) : FlowRegs x bdt q (writeFrom src off) e := by
  unfold Machine.writeFrom
  split
  · exact h.setKfg rfl (by simp) (by simp)
  · exact h.setKfg rfl (by simp) (by simp)

/-- Line 2 of `write_string` takes TXREADY; line 3 gives the descriptor to the SIE (44_byte_stream R137). -/
theorem flowCore_fgStep {s t : State} (h : FlowCore s) (hm : fgStep s = .moved t) : FlowCore t ∧ t.kisr = s.kisr := by
  have plain {k : KFg} (harm : k.beforeArm = false) (hready : ∀ src off, k ≠ .write2 src off) (hno : ∀ a, k ≠ .arm a) :
      FlowRegs s.txReady s.bdt s.ustatq k s.epStall :=
    FlowRegs.setKfg h harm (fun src off hk => absurd hk (hready src off)) hno
  cases fgMoves hm with
  | write1 _ hx => exact ⟨FlowRegs.setKfg h rfl (fun _ _ _ => hx) (by simp), rfl⟩
  | write2 hk =>
    have hc := h.count
    unfold inFlight at hc
    rw [h.ready _ _ hk] at hc
    refine ⟨{ h with count := ?_, ready := by simp, noArm := by simp }, rfl⟩
    show 0 + one (s.bdt.ep2In.own == .sie) + s.ustatq.count _ + 1 ≤ 1
    simp only [one, if_true] at hc ⊢
    omega
  | @write3 src off n u hk hu =>
    obtain ⟨sl, hsl, ho, -, hbd, -⟩ := ArmOp.run_done hu
    cases hsl
    have h1 : u.bdt.ep1In = s.bdt.ep1In := hbd .ep1In
    have h2 : u.bdt.ep2In = armedIn n _ s.bdt.ep2In := hbd .ep2In
    have h3 : u.bdt.ep2Out = s.bdt.ep2Out := hbd .ep2Out
    replace ho : s.bdt.ep2In.own = .cpu := ho
    have hc := h.count
    unfold inFlight at hc
    rw [ho, hk] at hc
    change one s.txReady + 0 + s.ustatq.count _ + 1 ≤ 1 at hc
    rw [ArmOp.run_eq hu]
    refine ⟨⟨?_, by simp, by simp, ?_, ?_, ?_, h.stall1, h.stall2⟩, rfl⟩
    · show one s.txReady + one (u.bdt.ep2In.own == .sie) + s.ustatq.count _ + 0 ≤ 1
      rw [h2]
      show one s.txReady + 1 + s.ustatq.count _ + 0 ≤ 1
      omega
    · exact (congrArg BD.own h1).trans h.ep1In
    · exact congrArg BD.stall h2
    · exact (congrArg BD.stall h3).trans h.ep2Out
  | write4 => exact ⟨FlowRegs.writeFrom h _ _, rfl⟩
  | arm hk => exact absurd hk (h.noArm _)
  | _ => exact ⟨plain rfl (by simp) (by simp), rfl⟩

/-- A call of a public program starts before a wait, or it has returned. -/
theorem flowCore_call {i : Instr} {k : KFg} {s : State} (hk : CallStart i k) (harm : armOf i = none) (h : FlowCore s) :
    FlowCore { s with kfg := k } := by
  rcases hk with rfl | ⟨src, rfl⟩ | ⟨a, ha, -⟩
  · exact FlowRegs.setKfg h rfl (by simp) (by simp)
  · exact FlowRegs.writeFrom h src 0
  · rw [harm] at ha; cases ha

/-! ### Steps -/

/-- The flow of the registers and of what is left of an invocation. -/
def FlowKept (s : State) : Prop := FlowCore s ∧ s.kisr.ops.all IsrOp.sparesDataIn = true

theorem flowKept_fgStep {s t : State} (h : FlowKept s) (hm : fgStep s = .moved t) : FlowKept t :=
  have ⟨hcore, hk⟩ := flowCore_fgStep h.1 hm
  ⟨hcore, hk ▸ h.2⟩

theorem busKept_kisrSpares : BusKept fun s => s.kisr.ops.all IsrOp.sparesDataIn = true where

theorem flowKept_ran {i : Instr} {s t : State} (hi : PublicRow s i) (hw : i.format = .busev8 → i.wellFormed = true)
    (hr : Ran i s t) (h : FlowKept s) : FlowKept t := by
  obtain ⟨hcore, hk⟩ := h
  cases hr with
  | bus hf hb => exact ⟨busKept_flowCore.busRan hb (hw hf) hcore, busKept_kisrSpares.busRan hb (hw hf) hk⟩
  | process => exact ⟨hcore, hk⟩
  | init hinit => exact absurd hinit hi.notInit
  | call hstart _ hm => exact flowKept_fgStep (s := { s with kfg := _ }) ⟨flowCore_call hstart hi.noArm hcore, hk⟩ hm
  | callHeld hstart _ => exact ⟨flowCore_call hstart hi.noArm hcore, hk⟩
  | @row s0 _ rest _ _ hin hp =>
    have h0 : FlowCore s0 ∧ rest.all IsrOp.sparesDataIn = true ∧ s0.kisr.ops.all IsrOp.sparesDataIn = true := by
      cases hin with
      | inside hact => exact ⟨hcore, by rw [hact] at hk; exact hk, hk⟩
      | entry => exact ⟨hcore, rfl, rfl⟩
    obtain ⟨hcore0, hrest, hk0⟩ := h0
    obtain ⟨hcore1, hops, hk1⟩ := flowCore_rowPlans hp hi.noArm hi.notTxDone hcore0
    exact flowRule.drive _ ⟨hcore, hk⟩
      (flowPoint_of_core hcore1 (by rw [List.all_append, hops, hrest]; rfl) (by rw [hk1]; exact hk0))
  | irq hf _ he hp =>
    obtain ⟨hready, hrow⟩ := hi.irq hf
    exact flowRule.drive _ ⟨hcore, hk⟩ (flowPoint_irqPlans hready he (hrow ▸ hp) hcore)
  | faulted => exact ⟨hcore, hk⟩

theorem flowKept_act {s u t : State} (hs : ∀ i, RunsRow s i → PublicRow u i) (ha : Act s u t) (h : FlowKept u) :
    FlowKept t := by
  obtain ⟨hcore, hk⟩ := h
  have point (k : List IsrOp) (hact : u.kisr = .active k) : FlowPoint k u :=
    flowPoint_of_core hcore (by rw [hact] at hk; exact hk) hk
  cases ha with
  | idle => exact ⟨hcore, hk⟩
  | row hi he => exact flowKept_ran (hs _ hi) hi.wellFormed (exec_ran he) ⟨hcore, hk⟩
  | resume hr => exact flowRule.resume ⟨hcore, hk⟩ point hr
  | atom => exact flowRule.atom ⟨hcore, hk⟩ point
  | enterAtom hr he =>
    rcases isrEnterAtom_cases hr he with ⟨s0, s1, ops, hs0, -, hp, rfl⟩ | ⟨c, -, rfl⟩
    · exact flowRule.segment _ ⟨hcore, hk⟩ (flowPoint_irqPlans hr hs0 hp hcore)
    · exact ⟨hcore, hk⟩
  | fg _ ho =>
    rcases fgOutcome_next ho with hm | rfl | ⟨c, rfl⟩
    · exact flowKept_fgStep ⟨hcore, hk⟩ hm
    · exact ⟨hcore, hk⟩
    · exact ⟨hcore, hk⟩

theorem flowOk_step {s t : State} (hs : FlowOk s) (h : step s = .next t) : FlowOk t := by
  obtain ⟨hp, hcore, hk⟩ := flowOk_iff.mp hs
  have hpt := publicFeed_step h hp
  obtain ⟨-, l, t0, l', ha, rfl, -, -⟩ := step_act h
  have hrows (i : Instr) (hi : RunsRow s i) : PublicRow (s.setFeed l) i := by
    obtain ⟨h1, h2, h3, h4⟩ := hi.publicRow hp
    exact ⟨h1, h2, h3, h4⟩
  obtain ⟨hcore', hk'⟩ := flowKept_act hrows ha ⟨hcore, hk⟩
  exact flowOk_iff.mpr ⟨hpt, hcore', hk'⟩

/-- Settles O57: the count of stages is an invariant, and FG before its arm is one of them. -/
theorem oneTransmissionInFlight : Obligations.OneTransmissionInFlight := by
  refine ⟨fun s t hs h => flowOk_step hs h, fun s src off n hs hk => ?_⟩
  obtain ⟨-, hcore, -⟩ := flowOk_iff.mp hs
  have hc := hcore.count
  unfold inFlight at hc
  rw [hk] at hc
  change _ + 1 ≤ 1 at hc
  have hx : one s.txReady = 0 := by omega
  have ho : one (s.bdt.ep2In.own == .sie) = 0 := by omega
  refine ⟨?_, ?_, ?_⟩
  · cases hown : s.bdt.ep2In.own with
    | cpu => rfl
    | sie => rw [hown] at ho; cases ho
  · show s.ustatq.count _ = 0
    omega
  · cases htx : s.txReady with
    | false => rfl
    | true => rw [htx] at hx; cases hx

end Sys2Proof.Machine

namespace Sys2Proof.Machine

open Sys2Proof.Spec0

/-! ## Ownership: neither side writes what the other owns -/

theorem disjointBufs_comm (a b : BitVec 16) : disjointBufs a b = disjointBufs b a := Bool.and_comm _ _

/-- Distinct descriptors have disjoint packet buffers (00_scope R17). -/
theorem disjointBufs_of_ne {c : Params} (h : bufAddrsWf c.bufAddr = true) {sl sl' : Slot} (hne : sl ≠ sl') :
    disjointBufs (paramAddr c sl) (paramAddr c sl') = true := by
  simp only [bufAddrsWf, Bool.and_eq_true] at h
  cases sl <;> cases sl' <;> simp_all [paramAddr, disjointBufs_comm]

/-- Disjoint buffers share no address (00_scope R17). -/
theorem bufAddr_ne {a b : BitVec 16} (h : disjointBufs a b = true) {i j : Nat} (hi : i < 64) (hj : j < 64) :
    bufAddr a i ≠ bufAddr b j := by
  rw [disjointBufs, Bool.and_eq_true, decide_eq_true_eq, decide_eq_true_eq] at h
  obtain ⟨h1, h2⟩ := h
  intro heq
  have heq' : (a + BitVec.ofNat 16 i).toNat = (b + BitVec.ofNat 16 j).toNat := heq
  rw [BitVec.toNat_add, BitVec.toNat_add, BitVec.toNat_ofNat, BitVec.toNat_ofNat] at heq'
  rw [BitVec.toNat_sub, Config.maxP] at h1 h2
  have ha := a.isLt
  have hb := b.isLt
  omega

/-- The five packet buffers lie where the parameters put them and share no address. -/
structure BuffersOk (s : State) : Prop where
  mem : MemOk s
  adr : ∀ sl, (s.bd sl).adr = paramAddr s.cfg sl
  disjoint : bufAddrsWf s.cfg.bufAddr = true

/-- The packet buffer of a descriptor reads the same in both states. -/
def SameBuffer (sl : Slot) (s t : State) : Prop :=
  ∀ n, n < 64 → t.ram.get (bufAddr (s.bd sl).adr n) = s.ram.get (bufAddr (s.bd sl).adr n)

/-- A packet written to one buffer leaves every other buffer as it was. -/
theorem sameBuffer_of_write {s t : State} {sl sl' : Slot} {d : List Byte} (hs : BuffersOk s) (hne : sl' ≠ sl)
    (hd : d.length ≤ Config.maxP) (ht : t.ram = memWrite s.ram (s.bd sl).adr d) : SameBuffer sl' s t := by
  intro n hn
  rw [ht]
  refine memWrite_get_other _ _ _ hs.mem fun i hi => ?_
  rw [hs.adr, hs.adr]
  exact bufAddr_ne (disjointBufs_of_ne hs.disjoint hne) hn (Nat.lt_of_lt_of_le hi hd)

/-! ### The processor side -/

/-- From `s` to `t` the processor side has spared what the SIE owns: its descriptors are unchanged, and so are their
buffers; and the buffers lie where they lay. -/
structure Spares (s t : State) : Prop where
  bd : ∀ sl, (s.bd sl).own = .sie → t.bd sl = s.bd sl
  buffers : BuffersOk s → BuffersOk t ∧ ∀ sl, (s.bd sl).own = .sie → SameBuffer sl s t

theorem Spares.refl (s : State) : Spares s s := ⟨fun _ _ => rfl, fun h => ⟨h, fun _ _ _ _ => rfl⟩⟩

/-- A step that writes neither descriptors nor USB RAM nor the parameters spares everything. -/
theorem Spares.of_eq {s t u : State} (h : Spares s t) (hbdt : u.bdt = t.bdt) (hram : u.ram = t.ram)
    (hcfg : u.cfg = t.cfg) : Spares s u := by
  have hbd := State.bd_congr hbdt
  refine ⟨fun sl ho => (hbd sl).trans (h.bd sl ho), fun hs => ?_⟩
  obtain ⟨ht, hsame⟩ := h.buffers hs
  refine ⟨⟨?_, fun sl => ?_, ?_⟩, fun sl ho n hn => ?_⟩
  · unfold MemOk; rw [hram]; exact ht.mem
  · rw [hbd, hcfg]; exact ht.adr sl
  · rw [hcfg]; exact ht.disjoint
  · rw [hram]; exact hsame sl ho n hn

/-- An arming operation finds its descriptor with the CPU (40_bdt_arming R89 to R91). -/
theorem Spares.arm {s t u : State} {a : ArmOp} (h : Spares s t) (hr : a.run t = .done u) : Spares s u := by
  obtain ⟨sl, -, ho, -, hbd, hram⟩ := ArmOp.run_done hr
  have other {sl' : Slot} (hs : (s.bd sl').own = .sie) : sl' ≠ sl := by
    rintro rfl
    rw [h.bd sl' hs, hs] at ho
    cases ho
  refine ⟨fun sl' hs => ?_, fun hs => ?_⟩
  · rw [hbd, if_neg (other hs)]
    exact h.bd sl' hs
  · obtain ⟨ht, hsame⟩ := h.buffers hs
    have hu : BuffersOk u := by
      refine ⟨ArmOp.run_memOk hr ht.mem, fun sl' => ?_, by rw [ArmOp.run_cfg hr]; exact ht.disjoint⟩
      rw [hbd, ArmOp.run_cfg hr]
      split
      · next h => rw [ArmOp.armed_adr, h]; exact ht.adr sl
      · exact ht.adr sl'
    refine ⟨hu, fun sl' hs n hn => ?_⟩
    rw [← hsame sl' hs n hn]
    rcases hram with hram | ⟨d, hd, hram⟩
    · rw [hram]
    · rw [← h.bd sl' hs]
      exact sameBuffer_of_write ht (other hs) hd hram n hn

theorem Spares.sparesSie {s t : State} (h : Spares s t) (released : BitVec 4 → Prop) : SparesSie released s t :=
  fun sl ho => ⟨.inl (h.bd sl ho), fun hm hb hd n hn =>
    (h.buffers ⟨hm, fun sl => (hb sl).2, hd⟩).2 sl ho n hn⟩

/-- What the rest of an invocation does spares what the SIE owns. -/
theorem sparesRule (s : State) : DriveRule (fun _ => Spares s) (Spares s) where
  pktdisOff _ _ h := h.of_eq rfl rfl rfl
  dequeue _ _ h := h.of_eq rfl rfl rfl
  arm _ _ _ _ h hr := h.arm hr
  stop _ h := h
  ret _ _ h := h.of_eq rfl rfl rfl
  hold _ _ _ h := h.of_eq rfl rfl rfl
  raise _ _ h := h.of_eq rfl rfl rfl

theorem Spares.inIsr {s s0 : State} {rest : List IsrOp} (h : InIsr s s0 rest) : Spares s s0 := by
  cases h with
  | inside => exact .refl s
  | entry => exact (Spares.refl s).of_eq rfl rfl rfl

theorem Spares.rowPlans {s s0 s1 : State} {i : Instr} {ops : List IsrOp} (h : Spares s s0)
    (hp : RowPlans i s0 s1 ops) : Spares s s1 := by
  cases hp with
  | nothing => exact h
  | arm => exact h
  | control => exact h.of_eq rfl rfl rfl
  | receive d => rw [rxStore_frame]; exact h.of_eq rfl rfl rfl
  | sent => exact h.of_eq rfl rfl rfl

theorem Spares.errorChecked {s s0 : State} (h : ErrorChecked s.enterIsr s0) : Spares s s0 := by
  rcases h with rfl | rfl <;> exact (Spares.refl s).of_eq rfl rfl rfl

/-- The stall release takes the IN descriptors of the endpoints whose stall condition is set, and nothing else of the
SIE's (42_dispatcher R115; log entry 13). -/
theorem sparesSie_onStall {s s0 : State} (h : ErrorChecked s.enterIsr s0) :
    SparesSie (fun ep => s.epStall.get ep = true) s (onStall s0) := by
  have h0 : s0.bdt = s.bdt ∧ s0.epStall = s.epStall ∧ s0.ram = s.ram := by
    rcases h with rfl | rfl <;> exact ⟨rfl, rfl, rfl⟩
  obtain ⟨hbdt, hst, hram⟩ := h0
  rw [onStall_eq, hbdt, hst]
  refine fun sl ho => ⟨?_, fun _ _ _ n _ => by rw [hram]⟩
  have release {e : Bool} {ep : BitVec 4} {b : BD} (hsl : inEndpoint sl = some ep) (he : s.epStall.get ep = e) :
      (if e = true then releasedStall b else b) = b
        ∨ ((∃ ep, inEndpoint sl = some ep ∧ s.epStall.get ep = true)
          ∧ (if e = true then releasedStall b else b) = { b with stall := false, own := .cpu, statBy := .cpu }) := by
    cases e with
    | false => exact .inl rfl
    | true => exact .inr ⟨⟨ep, hsl, he⟩, rfl⟩
  cases sl with
  | ep0Out => exact .inl rfl
  | ep2Out => exact .inl rfl
  | ep0In => exact release (ep := 0) rfl rfl
  | ep1In => exact release (ep := 1) rfl rfl
  | ep2In => exact release (ep := 2) rfl rfl

/-- A later state with the same descriptors, buffers and all. -/
theorem sparesSie_of_eq {released : BitVec 4 → Prop} {s t u : State} (h : SparesSie released s t)
    (hbdt : u.bdt = t.bdt) (hram : u.ram = t.ram) : SparesSie released s u := by
  intro sl ho
  rw [State.bd_congr hbdt, hram]
  exact h sl ho

theorem sparesSie_mono {p q : BitVec 4 → Prop} {s t : State} (h : SparesSie p s t) (hpq : ∀ ep, p ep → q ep) :
    SparesSie q s t := by
  intro sl ho
  obtain ⟨hbd, hram⟩ := h sl ho
  exact ⟨hbd.imp id fun ⟨⟨ep, he, hp⟩, heq⟩ => ⟨⟨ep, he, hpq ep hp⟩, heq⟩, hram⟩

/-- What a dispatcher row plans and leaves spares what the SIE owns, but for the stall release. -/
theorem sparesSie_irq {i : Instr} {s s0 s1 : State} {ops : List IsrOp} (he : ErrorChecked s.enterIsr s0)
    (hp : IrqPlans i s0 s1 ops) {t : State}
    (ht : t = drive s (ops ++ [.ret]) s1 ∨ t = segment s (ops ++ [.ret]) s1) :
    SparesSie (fun ep => ReleasesStall i ∧ s.epStall.get ep = true) s t := by
  have plain (h : Spares s s1) : SparesSie (fun ep => ReleasesStall i ∧ s.epStall.get ep = true) s t := by
    rcases ht with rfl | rfl
    · exact ((sparesRule s).drive _ (.refl s) h).sparesSie _
    · exact ((sparesRule s).segment _ (.refl s) h).sparesSie _
  have h0 := Spares.errorChecked he
  cases hp with
  | reset => exact plain (h0.of_eq rfl rfl rfl)
  | release hrel =>
    have h : SparesSie (fun ep => ReleasesStall i ∧ s.epStall.get ep = true) s (onStall s0) :=
      sparesSie_mono (sparesSie_onStall he) fun ep hep => ⟨hrel, hep⟩
    rcases ht with rfl | rfl <;> exact sparesSie_of_eq h rfl rfl
  | inn =>
    refine plain ?_
    rcases inComplete_cases _ s0 with ⟨a, -, heq⟩ | ⟨-, -, heq⟩ | ⟨-, -, heq⟩ <;> rw [heq] <;>
      exact h0.of_eq rfl rfl rfl
  | out _ hrow => exact plain (h0.rowPlans hrow)
  | nothing => exact plain h0

theorem Spares.fgStep {s u t : State} (h : Spares s u) (hm : fgStep u = .moved t) : Spares s t :=
  fgStep_keeps (fun _ _ _ h hr => h.arm hr) (fun _ _ _ _ _ _ _ _ h => h.of_eq rfl rfl rfl) h hm

theorem Spares.fgOutcome {s t : State} (h : fgOutcome s = .next t) : Spares s t := by
  rcases fgOutcome_next h with hm | rfl | ⟨c, rfl⟩
  · exact (Spares.refl s).fgStep hm
  · exact .refl _
  · exact (Spares.refl s).of_eq rfl rfl rfl

/-- A row that is no bus event and not INIT releases stalled endpoints or spares all that the SIE owns. -/
theorem sparesSie_exec {i : Instr} {s t : State} (hbus : i.format ≠ .busev8) (hinit : i ≠ .init)
    (h : exec i s = .next t) :
    SparesSie (fun ep => i.format = .irq16 ∧ ReleasesStall i ∧ s.epStall.get ep = true) s t := by
  have href := Spares.refl s
  cases exec_ran h with
  | bus hf => exact absurd hf hbus
  | init hi => exact absurd hi hinit
  | process => exact (href.of_eq rfl rfl rfl).sparesSie _
  | @call k _ _ _ hm =>
    have hk : Spares s { s with kfg := k } := href.of_eq rfl rfl rfl
    exact (hk.fgStep hm).sparesSie _
  | callHeld => exact (href.of_eq rfl rfl rfl).sparesSie _
  | row _ hin hp => exact ((sparesRule s).drive _ href ((Spares.inIsr hin).rowPlans hp)).sparesSie _
  | irq hf _ he hp => exact sparesSie_mono (sparesSie_irq he hp (.inl rfl)) fun _ hep => ⟨hf, hep⟩
  | faulted => exact (href.of_eq rfl rfl rfl).sparesSie _

/-- A dispatcher row that releases stalled endpoints is a line only where the registers show STALLF and no reset
(30_encoding R83; log entry 6). -/
theorem lineRefusal_releasesStall {i : Instr} {s : State} (h : ReleasesStall i) (hl : lineRefusal i s = none) :
    s.isrReady = true ∧ s.rstf = false ∧ s.stallf = true := by
  have shown {i : Instr} (hf : i.format = .irq16) (hl : lineRefusal i s = none) :
      s.isrReady = true ∧ irqShown i s = true := by
    simp only [lineRefusal, hf] at hl
    split at hl
    · cases hl
    · next hn =>
      have hr := State.entryRefusal_none.mp hl
      exact ⟨hr, by simpa [hr] using hn⟩
  obtain ⟨trnf, dir, ep, rfl | rfl⟩ := h
  · obtain ⟨hr, hs⟩ := shown rfl hl
    simp only [irqShown, Bool.and_eq_true, Bool.not_eq_true'] at hs
    obtain ⟨⟨⟨hrstf, -⟩, hstallf⟩, -⟩ := hs
    exact ⟨hr, hrstf, hstallf⟩
  · obtain ⟨hr, hs⟩ := shown rfl hl
    simp only [irqShown, Bool.and_eq_true, Bool.not_eq_true', beq_iff_eq] at hs
    obtain ⟨⟨⟨hrstf, -⟩, hstallf⟩, -⟩ := hs
    exact ⟨hr, hrstf, hstallf⟩

/-- The endpoints a step of the machine may release (42_dispatcher R112, R115). -/
def StepReleases (s : State) (ep : BitVec 4) : Prop :=
  s.isrReady = true ∧ s.rstf = false ∧ s.stallf = true ∧ s.epStall.get ep = true

theorem RunsRow.releases {s : State} {i : Instr} (h : RunsRow s i) (hrel : ReleasesStall i) :
    s.isrReady = true ∧ s.rstf = false ∧ s.stallf = true := by
  rcases h with ⟨f, bs, rest, -, -, hl⟩ | ⟨hr, rfl⟩ | rfl | ⟨src, rfl⟩ | ⟨b, rfl⟩
  · exact lineRefusal_releasesStall hrel hl
  · exact ⟨hr, irqRow_releasesStall hrel⟩
  all_goals
    obtain ⟨trnf, dir, ep, h | h⟩ := hrel <;> cases h

/-- A row that a processor line runs is no bus event and not INIT. -/
theorem RunsRow.processor {s : State} {i : Instr} (h : RunsRow s i)
    (hp : ∀ l rest, s.feed = l :: rest → isProcessorLine l = true) : i.format ≠ .busev8 ∧ i ≠ .init := by
  rcases h with ⟨f, bs, rest, hs, hd, -⟩ | ⟨-, rfl⟩ | rfl | ⟨src, rfl⟩ | ⟨b, rfl⟩
  · have hl := hp _ _ hs
    simpa [isProcessorLine, hd] using hl
  · have hf := irqRow_format s
    exact ⟨by simp [hf], fun h => by rw [h] at hf; cases hf⟩
  all_goals exact ⟨by simp [Instr.format], by simp⟩

theorem sparesSie_act {s t : State} {l : List Line} (hp : ∀ l rest, s.feed = l :: rest → isProcessorLine l = true)
    (ha : Act s (s.setFeed l) t) : SparesSie (StepReleases s) s t := by
  have href : Spares s (s.setFeed l) := (Spares.refl s).of_eq rfl rfl rfl
  have from_feed {p : BitVec 4 → Prop} (h : SparesSie p (s.setFeed l) t) : SparesSie p s t := h
  cases ha with
  | idle => exact href.sparesSie _
  | row hi he =>
    obtain ⟨hbus, hinit⟩ := hi.processor hp
    refine sparesSie_mono (from_feed (sparesSie_exec hbus hinit he)) fun ep hep => ?_
    obtain ⟨hr, hrst, hst⟩ := hi.releases hep.2.1
    exact ⟨hr, hrst, hst, hep.2.2⟩
  | resume hr => exact ((sparesRule s).resume href (fun _ _ => href) hr).sparesSie _
  | atom => exact ((sparesRule s).atom href fun _ _ => href).sparesSie _
  | enterAtom hr he =>
    rcases isrEnterAtom_cases hr he with ⟨s0, s1, ops, hs0, -, hplan, rfl⟩ | ⟨c, -, rfl⟩
    · refine sparesSie_mono (from_feed (sparesSie_irq hs0 hplan (.inr rfl))) fun ep hep => ?_
      obtain ⟨hrst, hst⟩ := irqRow_releasesStall hep.1
      exact ⟨hr, hrst, hst, hep.2⟩
    · exact (href.of_eq rfl rfl rfl).sparesSie _
  | fg _ ho => exact from_feed ((Spares.fgOutcome ho).sparesSie _)

/-- Settles O38: every write of the processor side finds its descriptor with the CPU, but for the stall release. -/
theorem processorSparesWhatTheSieOwns : Obligations.ProcessorSparesWhatTheSieOwns := by
  refine ⟨fun i s t hbus hinit h => ?_, fun s t h => (Spares.fgOutcome h).sparesSie _, fun s t hp h => ?_⟩
  · exact sparesSie_mono (sparesSie_exec hbus hinit h) fun ep hep => ⟨hep.1, hep.2.2⟩
  · obtain ⟨-, l, t0, l', ha, rfl, -, -⟩ := step_act h
    exact sparesSie_of_eq (sparesSie_act hp ha) rfl rfl

/-! ### The bus -/

/-- From `s` to `t` the bus has spared what the CPU owns. -/
def SparesCpu (s t : State) : Prop := ∀ sl, (s.bd sl).own = .cpu → t.bd sl = s.bd sl ∧ (BuffersOk s → SameBuffer sl s t)

theorem SparesCpu.of_eq {s t u : State} (h : SparesCpu s t) (hbdt : u.bdt = t.bdt) (hram : u.ram = t.ram) :
    SparesCpu s u := by
  intro sl ho
  obtain ⟨hbd, hb⟩ := h sl ho
  exact ⟨(State.bd_congr hbdt sl).trans hbd, fun hs n hn => by rw [hram]; exact hb hs n hn⟩

theorem SparesCpu.refl (s : State) : SparesCpu s s := fun _ _ => ⟨rfl, fun _ _ _ => rfl⟩

theorem ne_of_owners {s : State} {sl sl' : Slot} (h : (s.bd sl).own = .sie) (h' : (s.bd sl').own = .cpu) :
    sl' ≠ sl := by
  rintro rfl
  rw [h] at h'
  cases h'

theorem sparesCpu_receive {s : State} {sl : Slot} (ho : (s.bd sl).own = .sie) (c : Completion) (pid : BitVec 4)
    {d : List Byte} (hd : d.length ≤ Config.maxP) : SparesCpu s (receive sl c pid d s) := by
  intro sl' ho'
  have hne := ne_of_owners ho ho'
  exact ⟨by rw [receive_bd, if_neg hne], fun hs => sameBuffer_of_write hs hne hd (by rw [receive_eq])⟩

theorem sparesCpu_transmit {s : State} {sl : Slot} (ho : (s.bd sl).own = .sie) (c : Completion) :
    SparesCpu s (transmit sl c s) := by
  intro sl' ho'
  exact ⟨by rw [transmit_bd, if_neg (ne_of_owners ho ho')], fun _ n _ => by rw [transmit_eq]⟩

/-- Settles O39: every completion finds its descriptor with the SIE. -/
theorem busSparesWhatTheCpuOwns : Obligations.BusSparesWhatTheCpuOwns := by
  intro i s t hf hw h
  have hspares : SparesCpu s t := by
    have href := SparesCpu.refl s
    cases busRan_of_exec hf h with
    | answered => exact href.of_eq rfl rfl
    | stalled => exact href.of_eq rfl rfl
    | @setup _ p _ ho => exact (sparesCpu_receive (sl := .ep0Out) ho ⟨0, .out⟩ _ (setupBytes_length p)).of_eq rfl rfl
    | @received ep _ _ _ ho _ _ hd => exact (sparesCpu_receive ho ⟨ep, .out⟩ _ (hd hw)).of_eq rfl rfl
    | @sent ep _ _ _ ho => exact (sparesCpu_transmit ho ⟨ep, .inn⟩).of_eq rfl rfl
    | reset => exact href.of_eq rfl rfl
    | error => exact href.of_eq rfl rfl
  intro sl ho
  obtain ⟨hbd, hbuf⟩ := hspares sl ho
  exact ⟨hbd, fun hm hb hd => hbuf ⟨hm, fun sl => (hb sl).2, hd⟩⟩

end Sys2Proof.Machine

namespace Sys2Proof.Machine

open Sys2Proof.Spec0

/-! ## Which rows write which register -/

theorem eq_of_exceptDrive {t u : State} (h : t.exceptDrive = u.exceptDrive) :
    t = { u with
      ram := t.ram, bdt := t.bdt, free := t.free, pktdis := t.pktdis, ustatq := t.ustatq, inisr := t.inisr,
      kisr := t.kisr, fault := t.fault } := by
  cases t
  cases u
  simp only [State.exceptDrive, State.exceptArm, State.mk.injEq] at h ⊢
  simp [h]

/-- The rest of an invocation writes USB RAM, the descriptor table, PKTDIS, USTATQ, INISR, KISR, FAULT and the count of
free values; or a fault leaves the state before. -/
theorem drive_eq (l : List IsrOp) (b s : State) :
    (∃ m d f p q n k x, drive b l s
        = { s with ram := m, bdt := d, free := f, pktdis := p, ustatq := q, inisr := n, kisr := k, fault := x })
      ∨ ∃ c, drive b l s = b.raise c :=
  (drive_frame l b s).imp (fun h => ⟨_, _, _, _, _, _, _, _, eq_of_exceptDrive h⟩) id

/-- What the first step of a call writes: the line FG stands before, and what an arming operation may write. -/
theorem callStart_moved {i : Instr} {k : KFg} {s t : State} (hk : CallStart i k)
    (h : fgStep { s with kfg := k } = .moved t) :
    ∃ m d f k', t = { s with ram := m, bdt := d, free := f, kfg := k' } := by
  rcases hk with rfl | ⟨src, rfl⟩ | ⟨a, -, rfl⟩
  · replace h : fgRead1 _ = .moved t := h
    unfold fgRead1 at h
    split at h <;> cases h
    exact ⟨s.ram, s.bdt, s.free, _, rfl⟩
  · unfold writeFrom at h
    split at h
    · replace h : fgWrite1 src 0 _ = .moved t := h
      unfold fgWrite1 at h
      split at h <;> cases h
      exact ⟨s.ram, s.bdt, s.free, _, rfl⟩
    · cases h
  · obtain ⟨u, hu, rfl⟩ := fgArm_moved h
    refine ⟨u.ram, u.bdt, u.free, .idle, ?_⟩
    rw [ArmOp.run_eq hu]

/-! ### The registers a row writes itself -/

/-- What RegisterWriters says of the registers that the rest of an invocation does not write. -/
def OwnWrites (i : Instr) (s t : State) : Prop :=
  (t.ctrl ≠ s.ctrl → servesEp0 i = true)
  ∧ (t.lineCoding ≠ s.lineCoding → servesEp0 i = true ∨ ∃ payload, i = .clsSetLineCoding payload)
  ∧ (t.diag ≠ s.diag ∨ t.outTog ≠ s.outTog ∨ t.rxbuf ≠ s.rxbuf ∨ t.wr ≠ s.wr ∨ t.occ ≠ s.occ → receives i = true)
  ∧ (t.rstf ≠ s.rstf → (i = .busReset ∧ t.rstf = true) ∨ (i.format = .irq16 ∧ t.rstf = false))
  ∧ (t.stallf ≠ s.stallf ∨ t.epStall ≠ s.epStall →
      (i.format = .busev8 ∧ t.stallf = true) ∨ (i.format = .irq16 ∧ t.stallf = false))
  ∧ (t.ueir ≠ s.ueir → (∃ k, i = .busError k) ∨ (i.format = .irq16 ∧ t.ueir = 0))
  ∧ t.rd = s.rd ∧ t.gie = s.gie ∧ t.inTog = s.inTog ∧ t.returned = s.returned ∧ t.cfg = s.cfg

theorem OwnWrites.refl (i : Instr) (s : State) : OwnWrites i s s := by simp [OwnWrites]

theorem ownWrites_rowPlans {i : Instr} {s s1 : State} {ops : List IsrOp} (h : RowPlans i s s1 ops) :
    OwnWrites i s s1 := by
  cases h with
  | nothing => exact .refl i s
  | arm => exact .refl i s
  | control e hserve => simp [OwnWrites, hserve]
  | receive d hrec => rw [rxStore_frame]; simp [OwnWrites, hrec]
  | sent => exact .refl i s

theorem ownWrites_irqPlans {i : Instr} {s s1 : State} {ops : List IsrOp} (hf : i.format = .irq16)
    (h : IrqPlans i s s1 ops) : OwnWrites i s s1 := by
  cases h with
  | reset => simp [OwnWrites, hf]
  | release => rw [onStall_eq]; simp [OwnWrites, hf]
  | inn =>
    rcases inComplete_cases _ s with ⟨a, -, heq⟩ | ⟨-, -, heq⟩ | ⟨-, -, heq⟩ <;> rw [heq]
    · exact OwnWrites.refl i s
    · exact OwnWrites.refl i s
    · exact OwnWrites.refl i s
  | out _ hrow => exact ownWrites_rowPlans hrow
  | nothing => exact .refl i s

/-- The dispatcher's error check clears UEIR before its row goes on (42_dispatcher R114). -/
theorem OwnWrites.of_errorChecked {i : Instr} {s s0 s1 : State} (hf : i.format = .irq16) (he : ErrorChecked s s0)
    (h : OwnWrites i s0 s1) : OwnWrites i s s1 := by
  rcases he with rfl | rfl
  · exact h
  · obtain ⟨h1, h2, h3, h4, h5, h6, h7⟩ := h
    refine ⟨h1, h2, h3, h4, h5, fun _ => ?_, h7⟩
    by_cases hu : s1.ueir = 0
    · exact .inr ⟨hf, hu⟩
    · exact h6 hu

theorem OwnWrites.drive {i : Instr} {s s1 : State} (h : OwnWrites i s s1) (l : List IsrOp) :
    OwnWrites i s (drive s l s1) := by
  rcases drive_eq l s s1 with ⟨m, d, f, p, q, n, k, x, heq⟩ | ⟨c, heq⟩ <;> rw [heq]
  · exact h
  · exact OwnWrites.refl i s

theorem ownWrites_busRan {i : Instr} {s t : State} (hf : i.format = .busev8) (h : BusRan i s t) : OwnWrites i s t := by
  cases h with
  | answered r => exact OwnWrites.refl i s
  | stalled => simp [OwnWrites, stallHandshake, State.answer, hf]
  | setup => rw [receive_eq]; exact OwnWrites.refl i s
  | received => rw [receive_eq]; exact OwnWrites.refl i s
  | sent => rw [transmit_eq]; exact OwnWrites.refl i s
  | reset hi => simp [OwnWrites, State.answer, hi]
  | error k hi => simp [OwnWrites, State.answer, hi]

theorem InIsr.of_inactive {s s0 : State} {rest : List IsrOp} (h : InIsr s s0 rest) (hk : s.kisr = .inactive) :
    s0 = s.enterIsr ∧ rest = [.ret] := by
  cases h with
  | inside ha => rw [hk] at ha; cases ha
  | entry => exact ⟨rfl, rfl⟩

theorem ownWrites_ran {i : Instr} {s t : State} (hk : s.kisr = .inactive) (hi : i ≠ .init) (h : Ran i s t) :
    OwnWrites i s t := by
  cases h with
  | bus hf hb => exact ownWrites_busRan hf hb
  | process hl =>
    rcases hl with rfl | hl
    · exact .refl i s
    · simp [OwnWrites, hl]
  | init h => exact absurd h hi
  | call hstart _ hm =>
    obtain ⟨m, d, f, k', rfl⟩ := callStart_moved hstart hm
    exact OwnWrites.refl i s
  | callHeld => exact OwnWrites.refl i s
  | @row _ s1 _ _ _ hin hp =>
    obtain ⟨rfl, rfl⟩ := hin.of_inactive hk
    have h1 : OwnWrites i s.enterIsr s1 := ownWrites_rowPlans hp
    exact OwnWrites.drive (s := s) (s1 := s1) h1 _
  | @irq _ s1 _ hf _ he hp =>
    have h1 : OwnWrites i s.enterIsr s1 := (ownWrites_irqPlans hf hp).of_errorChecked hf he
    exact OwnWrites.drive (s := s) (s1 := s1) h1 _
  | faulted => exact OwnWrites.refl i s

/-! ### USTATQ and PKTDIS -/

/-- A rest with at most `m ≤ 1` dequeues leaves the queue, or with `m = 1` takes its head. -/
theorem queueRule (q : List Completion) {m : Nat} (hm : m ≤ 1) :
    DriveRule
      (fun l s => (s.ustatq = q ∧ l.count .dequeue ≤ m) ∨ (m = 1 ∧ s.ustatq = q.tail ∧ l.count .dequeue = 0))
      (fun s => s.ustatq = q ∨ (m = 1 ∧ s.ustatq = q.tail)) where
  pktdisOff k s h := by simpa using h
  dequeue k s h := by
    rcases h with ⟨hq, hl⟩ | ⟨-, -, hl⟩
    · rw [List.count_cons_self] at hl
      exact .inr ⟨by omega, by rw [← hq], by omega⟩
    · simp at hl
  arm a k s u h hr := by
    rw [ArmOp.run_eq hr]
    simpa using h
  stop _ h := h.imp And.left fun h => ⟨h.1, h.2.1⟩
  ret _ _ h := h.imp And.left fun h => ⟨h.1, h.2.1⟩
  hold _ _ _ h := h.imp And.left fun h => ⟨h.1, h.2.1⟩
  raise _ _ h := h

/-- PKTDIS changes in the rest of an invocation only where `e` says so, and to 0 (42_dispatcher R119). -/
theorem pktdisRule (p : Bool) (e : Prop) :
    DriveRule (fun l s => (.pktdisOff ∈ l → e) ∧ (s.pktdis = p ∨ (s.pktdis = false ∧ e)))
      (fun s => s.pktdis = p ∨ (s.pktdis = false ∧ e)) where
  pktdisOff k s h := ⟨fun hk => h.1 (List.mem_cons_of_mem _ hk), .inr ⟨rfl, h.1 (by simp)⟩⟩
  dequeue k s h := ⟨fun hk => h.1 (List.mem_cons_of_mem _ hk), h.2⟩
  arm a k s u h hr := ⟨fun hk => h.1 (List.mem_cons_of_mem _ hk), by rw [ArmOp.run_eq hr]; exact h.2⟩
  stop _ h := h.2
  ret _ _ h := h.2
  hold _ _ _ h := h.2
  raise _ _ h := h

theorem Ep0Ops.arms {ops : List IsrOp} (h : Ep0Ops ops) : .dequeue ∉ ops ∧ .pktdisOff ∉ ops := by
  cases h <;> simp

/-- What a row that is no dispatcher row plans leaves the queue and PKTDIS; no dequeue follows it, and packet processing
is enabled only behind an OUT-direction completion. -/
theorem RowPlans.queue {i : Instr} {s s1 : State} {ops : List IsrOp} (h : RowPlans i s s1 ops) :
    s1.ustatq = s.ustatq ∧ s1.pktdis = s.pktdis ∧ .dequeue ∉ ops ∧ (.pktdisOff ∈ ops → EndsOut i) := by
  have ends {e : Bool} (he : e = true → EndsOut i) : .dequeue ∉ endOps e ∧ (.pktdisOff ∈ endOps e → EndsOut i) := by
    cases e with
    | false => simp [endOps]
    | true => exact ⟨by simp [endOps], fun _ => he rfl⟩
  cases h with
  | nothing e he => exact ⟨rfl, rfl, ends he⟩
  | arm => simp
  | control e _ _ hops he =>
    obtain ⟨hd, hp⟩ := hops.arms
    obtain ⟨hd', hp'⟩ := ends he
    exact ⟨rfl, rfl, by simp [hd, hd'], by simpa [hp] using hp'⟩
  | receive d => rw [rxStore_frame]; simp
  | sent => simp [txDone]

theorem IrqPlans.queue {i : Instr} {s s1 : State} {ops : List IsrOp} (h : IrqPlans i s s1 ops) :
    s1.ustatq = s.ustatq ∧ s1.pktdis = s.pktdis ∧ (ops ++ [IsrOp.ret]).count IsrOp.dequeue ≤ 1 := by
  cases h with
  | reset => simp
  | release => rw [onStall_eq]; simp
  | inn => rcases inComplete_cases _ s with ⟨a, -, heq⟩ | ⟨-, -, heq⟩ | ⟨-, -, heq⟩ <;> rw [heq] <;> simp
  | out _ hrow =>
    obtain ⟨hq, hp, hd, -⟩ := hrow.queue
    exact ⟨hq, hp, by simp [List.count_append, List.count_eq_zero_of_not_mem hd]⟩
  | nothing => simp

theorem ErrorChecked.same {s s0 : State} (h : ErrorChecked s s0) : s0.ustatq = s.ustatq ∧ s0.pktdis = s.pktdis := by
  rcases h with rfl | rfl <;> exact ⟨rfl, rfl⟩

/-- Everything a row does to USTATQ: a bus event appends a completion, a dispatcher row takes the head. -/
theorem ustatq_ran {i : Instr} {s t : State} (hk : s.kisr = .inactive) (hi : i ≠ .init) (h : Ran i s t) :
    t.ustatq = s.ustatq ∨ (i.format = .busev8 ∧ ∃ c, t.ustatq = s.ustatq ++ [c])
      ∨ (i.format = .irq16 ∧ t.ustatq = s.ustatq.tail) := by
  cases h with
  | bus hf hb =>
    cases hb with
    | setup => rw [receive_eq]; exact .inr (.inl ⟨hf, _, rfl⟩)
    | received => rw [receive_eq]; exact .inr (.inl ⟨hf, _, rfl⟩)
    | sent => rw [transmit_eq]; exact .inr (.inl ⟨hf, _, rfl⟩)
    | _ => exact .inl rfl
  | init h => exact absurd h hi
  | call hstart _ hm =>
    obtain ⟨m, d, f, k', rfl⟩ := callStart_moved hstart hm
    exact .inl rfl
  | row _ hin hp =>
    obtain ⟨rfl, rfl⟩ := hin.of_inactive hk
    obtain ⟨hq, -, hd, -⟩ := hp.queue
    have hcount : (_ ++ [IsrOp.ret]).count IsrOp.dequeue = 0 := List.count_eq_zero_of_not_mem (by simpa using hd)
    rcases (queueRule s.ustatq (m := 0) (by simp)).drive _ (.inl rfl)
      (.inl ⟨hq, Nat.le_of_eq hcount⟩) with h | ⟨h, -⟩
    · exact .inl h
    · cases h
  | irq hf _ he hp =>
    obtain ⟨hq, -, hd⟩ := hp.queue
    rcases (queueRule s.ustatq (Nat.le_refl 1)).drive _ (.inl rfl) (.inl ⟨hq.trans he.same.1, hd⟩) with h | ⟨-, h⟩
    · exact .inl h
    · exact .inr (.inr ⟨hf, h⟩)
  | _ => exact .inl rfl

/-- Everything a row does to PKTDIS: an accepted SETUP sets it, the end of an OUT-direction completion clears it. -/
theorem pktdis_ran {i : Instr} {s t : State} (hk : s.kisr = .inactive) (hi : i ≠ .init) (h : Ran i s t) :
    t.pktdis = s.pktdis ∨ ((∃ a p, i = .busSetup a 0 p) ∧ t.pktdis = true) ∨ (t.pktdis = false ∧ EndsOut i) := by
  cases h with
  | bus hf hb =>
    cases hb with
    | setup hi => exact .inr (.inl ⟨⟨_, _, hi⟩, rfl⟩)
    | received => rw [receive_eq]; exact .inl rfl
    | sent => rw [transmit_eq]; exact .inl rfl
    | _ => exact .inl rfl
  | init h => exact absurd h hi
  | call hstart _ hm =>
    obtain ⟨m, d, f, k', rfl⟩ := callStart_moved hstart hm
    exact .inl rfl
  | row _ hin hp =>
    obtain ⟨rfl, rfl⟩ := hin.of_inactive hk
    obtain ⟨-, hp, -, hoff⟩ := hp.queue
    exact ((pktdisRule s.pktdis (EndsOut i)).drive _ (.inl rfl) ⟨by simpa using hoff, .inl hp⟩).imp id .inr
  | irq hf _ he hp =>
    obtain ⟨-, hp, -⟩ := hp.queue
    exact ((pktdisRule s.pktdis (EndsOut i)).drive _ (.inl rfl)
      ⟨fun _ => .inr (.inl hf), .inl (hp.trans he.same.2)⟩).imp id .inr
  | _ => exact .inl rfl

/-- Settles O51: a row's own writes, then what the rest of its invocation may do to USTATQ and PKTDIS. -/
theorem registerWriters : Obligations.RegisterWriters := by
  intro i s t hi hk h
  have hran := exec_ran h
  obtain ⟨hctrl, hline, hring, hrstf, hstall, hueir, hfixed⟩ := ownWrites_ran hk hi hran
  exact ⟨hctrl, hline, hring, hrstf, hstall, fun hne => (ustatq_ran hk hi hran).resolve_left hne, hueir,
    fun hne => (pktdis_ran hk hi hran).resolve_left hne, hfixed⟩

/-! ### ADDR, PENDADDR and TXREADY -/

/-- What AddressAndTxReadyWriters says of a row. -/
def AddressWrites (i : Instr) (s t : State) : Prop :=
  (t.addr ≠ s.addr →
    (servesIn i = true ∧ s.pendAddr = some t.addr ∧ t.pendAddr = none)
    ∨ (i = .busReset ∧ s.cfg.resetClearsAddr = true ∧ t.addr = 0) ∨ (i = .init ∧ t.addr = 0))
  ∧ (t.pendAddr ≠ s.pendAddr →
    (∃ h wValue wIndex wLength, t.pendAddr = some (BitVec.ofNat 7 (wValue.toNat % 128))
      ∧ (i = .setAddress h wValue wIndex wLength
          ∨ (decodesPacket i = true
              ∧ decodeSetup (readSetup s.ram s.bdt.ep0Out.adr) = .setAddress h wValue wIndex wLength)))
    ∨ (servesIn i = true ∧ s.pendAddr = some t.addr ∧ t.pendAddr = none) ∨ (i = .init ∧ t.pendAddr = none))
  ∧ (t.txReady ≠ s.txReady →
    t.txReady = true
    ∧ (i = .txDoneCallback ∨ i = .init
        ∨ ((i = .dispatchTrnIn 2 ∨ i = .dispatchError false true .inn 2) ∧ s.pendAddr = none)))

theorem AddressWrites.refl (i : Instr) (s : State) : AddressWrites i s s := by simp [AddressWrites]

/-- SET_ADDRESS takes the low seven bits (41_control_transfer R102). -/
theorem requestedAddress_eq (w : BitVec 16) : requestedAddress w = BitVec.ofNat 7 (w.toNat % 128) := by
  apply BitVec.eq_of_toNat_eq
  simp [requestedAddress]

theorem addressWrites_rowPlans {i : Instr} {s s1 : State} {ops : List IsrOp} (h : RowPlans i s s1 ops) :
    AddressWrites i s s1 := by
  cases h with
  | nothing => exact .refl i s
  | arm => exact .refl i s
  | control e _ hl =>
    refine ⟨fun hne => absurd rfl hne, fun hne => ?_, fun hne => absurd rfl hne⟩
    obtain ⟨h, v, x, y, rfl, hrow⟩ := hl.resolve_left hne
    exact .inl ⟨h, v, x, y, by rw [requestedAddress_eq], hrow⟩
  | receive d => rw [rxStore_frame]; exact AddressWrites.refl i s
  | sent hi => simp [AddressWrites, txDone, hi]

theorem Serves.servesIn {i : Instr} {ep : BitVec 4} (h : Serves i .inn ep) : servesIn i = true := by
  rcases h with rfl | rfl <;> rfl

theorem addressWrites_irqPlans {i : Instr} {s s1 : State} {ops : List IsrOp} (h : IrqPlans i s s1 ops) :
    AddressWrites i s s1 := by
  cases h with
  | reset => exact AddressWrites.refl i s
  | release => rw [onStall_eq]; exact AddressWrites.refl i s
  | @inn ep hs =>
    rcases inComplete_cases ep s with ⟨a, hp, heq⟩ | ⟨hp, rfl, heq⟩ | ⟨-, -, heq⟩ <;> rw [heq]
    · have hrow : servesIn i = true ∧ s.pendAddr = some a := ⟨hs.servesIn, hp⟩
      exact ⟨fun _ => .inl ⟨hrow.1, hrow.2, rfl⟩, fun _ => .inr (.inl ⟨hrow.1, hrow.2, rfl⟩), fun hne => absurd rfl hne⟩
    · exact ⟨fun hne => absurd rfl hne, fun hne => absurd rfl hne, fun _ => ⟨rfl, .inr (.inr ⟨hs, hp⟩)⟩⟩
    · exact AddressWrites.refl i s
  | out _ hrow => exact addressWrites_rowPlans hrow
  | nothing => exact .refl i s

theorem AddressWrites.drive {i : Instr} {s s1 : State} (h : AddressWrites i s s1) (l : List IsrOp) :
    AddressWrites i s (drive s l s1) := by
  rcases drive_eq l s s1 with ⟨m, d, f, p, q, n, k, x, heq⟩ | ⟨c, heq⟩ <;> rw [heq]
  · exact h
  · exact AddressWrites.refl i s

theorem addressWrites_busRan {i : Instr} {s t : State} (h : BusRan i s t) : AddressWrites i s t := by
  cases h with
  | setup => rw [receive_eq]; exact AddressWrites.refl i s
  | received => rw [receive_eq]; exact AddressWrites.refl i s
  | sent => rw [transmit_eq]; exact AddressWrites.refl i s
  | reset hi =>
    refine ⟨fun hne => .inr (.inl ?_), fun hne => absurd rfl hne, fun hne => absurd rfl hne⟩
    cases hc : s.cfg.resetClearsAddr with
    | false => exact absurd (by simp [State.answer, hc]) hne
    | true => exact ⟨hi, rfl, by simp [State.answer]⟩
  | _ => exact AddressWrites.refl i s

/-- INIT's launch values of the three registers (70_reset R176). -/
theorem init_address (s : State) :
    let t := initContexts (initArms (initRegisters s))
    t.addr = 0 ∧ t.pendAddr = none ∧ t.txReady = true := by
  have h0 : (initRegisters s).addr = 0 ∧ (initRegisters s).pendAddr = none ∧ (initRegisters s).txReady = true :=
    ⟨rfl, rfl, rfl⟩
  exact drive_keeps (fun u => u.addr = 0 ∧ u.pendAddr = none ∧ u.txReady = true) (fun _ h => h) (fun _ h => h)
    (fun _ h => h) (fun _ _ _ h hr => by rw [ArmOp.run_eq hr]; exact h) (fun _ _ _ h => h) (fun _ _ h => h) _ h0 h0

theorem addressWrites_ran {i : Instr} {s t : State} (h : Ran i s t) : AddressWrites i s t := by
  cases h with
  | bus _ hb => exact addressWrites_busRan hb
  | init hi =>
    obtain ⟨ha, hp, hx⟩ := init_address s
    exact ⟨fun _ => .inr (.inr ⟨hi, ha⟩), fun _ => .inr (.inr ⟨hi, hp⟩), fun _ => ⟨hx, .inr (.inl hi)⟩⟩
  | call hstart _ hm =>
    obtain ⟨m, d, f, k', rfl⟩ := callStart_moved hstart hm
    exact AddressWrites.refl i s
  | row _ hin hp =>
    have h1 := addressWrites_rowPlans hp
    refine AddressWrites.drive ?_ _
    cases hin <;> exact h1
  | irq _ _ he hp =>
    have h1 := addressWrites_irqPlans hp
    refine AddressWrites.drive ?_ _
    rcases he with rfl | rfl <;> exact h1
  | _ => exact AddressWrites.refl i s

/-- The three registers are the same in both states. -/
def SameAddress (s t : State) : Prop := t.addr = s.addr ∧ t.pendAddr = s.pendAddr ∧ t.txReady = s.txReady

/-- The rest of an invocation leaves the three registers (42_dispatcher R121). -/
theorem sameAddressRule (s : State) : DriveRule (fun _ => SameAddress s) (SameAddress s) where
  pktdisOff _ _ h := h
  dequeue _ _ h := h
  arm _ _ _ _ h hr := by rw [ArmOp.run_eq hr]; exact h
  stop _ h := h
  ret _ _ h := h
  hold _ _ _ h := h
  raise _ _ h := h

/-- FG writes TXREADY at line 2 of `write_string` alone, and neither address. -/
theorem fgStep_address {s t : State} (h : fgStep s = .moved t) :
    t.addr = s.addr ∧ t.pendAddr = s.pendAddr
      ∧ (t.txReady ≠ s.txReady → t.txReady = false ∧ ∃ src off, s.kfg = .write2 src off) := by
  cases fgMoves h with
  | write2 hk => exact ⟨rfl, rfl, fun _ => ⟨rfl, _, _, hk⟩⟩
  | write3 _ hu => rw [ArmOp.run_eq hu]; exact ⟨rfl, rfl, fun hne => absurd rfl hne⟩
  | arm _ hu => rw [ArmOp.run_eq hu]; exact ⟨rfl, rfl, fun hne => absurd rfl hne⟩
  | _ => exact ⟨rfl, rfl, fun hne => absurd rfl hne⟩

theorem fgOutcome_address {s t : State} (h : fgOutcome s = .next t) :
    t.addr = s.addr ∧ t.pendAddr = s.pendAddr
      ∧ (t.txReady ≠ s.txReady → t.txReady = false ∧ ∃ src off, s.kfg = .write2 src off) := by
  rcases fgOutcome_next h with hm | rfl | ⟨c, rfl⟩
  · exact fgStep_address hm
  · exact ⟨rfl, rfl, fun hne => absurd rfl hne⟩
  · exact ⟨rfl, rfl, fun hne => absurd rfl hne⟩

/-- A rest up to its next hold point leaves the three registers as the whole rest does. -/
theorem segment_sameAddress {l : List IsrOp} (hl : .ret ∈ l) (b s : State) :
    SameAddress (segment b l s) (drive b l s) := by
  rcases drive_segment l b s hl with ⟨a, k, -, -, heq⟩ | heq <;> rw [heq]
  · exact (sameAddressRule _).drive _ ⟨rfl, rfl, rfl⟩ ⟨rfl, rfl, rfl⟩
  · exact ⟨rfl, rfl, rfl⟩

theorem isrEnterAtom_address {s t : State} (hr : s.isrReady = true) (h : isrEnterAtom s = .next t) :
    ∃ u, isrEnter s = .next u ∧ SameAddress t u := by
  rw [isrEnter_eq hr, exec_irq16 (irqRow_format s), isrInvoke_of_ready hr]
  rcases isrEnterAtom_cases hr h with ⟨s0, s1, ops, -, heq, -, rfl⟩ | ⟨c, heq, rfl⟩ <;> rw [heq]
  · exact ⟨_, rfl, segment_sameAddress (by simp) s s1⟩
  · exact ⟨_, rfl, rfl, rfl, rfl⟩

/-- Settles O52: the three registers are written by a row's own writes alone, never by the rest of an invocation. -/
theorem addressAndTxReadyWriters : Obligations.AddressAndTxReadyWriters := by
  refine ⟨fun i s t h => (addressWrites_ran (exec_ran h)).1, fun i s t h => (addressWrites_ran (exec_ran h)).2.1,
    fun i s t h => (addressWrites_ran (exec_ran h)).2.2, fun s t h => fgOutcome_address h, fun s t h => ?_,
    fun s t hr h => ?_⟩
  · have href : SameAddress s s := ⟨rfl, rfl, rfl⟩
    rcases h with h | rfl
    · exact (sameAddressRule s).resume href (fun _ _ => href) h
    · exact (sameAddressRule s).atom href fun _ _ => href
  · obtain ⟨u, hu, ha, hp, hx⟩ := isrEnterAtom_address hr h
    exact ⟨u, hu, ha.symm, hp.symm, hx.symm⟩

end Sys2Proof.Machine

namespace Sys2Proof.Machine

open Sys2Proof.Spec0

/-! ## The launch state and the endpoint table -/

theorem launch_adr (c : Params) (sl : Slot) : ((State.launch c).bd sl).adr = paramAddr c sl := by cases sl <;> rfl

theorem paramsWf_fixture : paramsWf Config.fixture = true := by decide

/-- Settles O1: the launch state holds each value by definition, and the fixture is admissible. -/
theorem launchStateHoldsTheTable : Obligations.LaunchStateHoldsTheTable := by
  refine ⟨fun c => ?_, Config.fixture, paramsWf_fixture, rfl⟩
  have hcap : (State.launch c).rxbuf.length = c.rxCap := List.length_replicate
  refine ⟨⟨rfl, rfl, rfl, rfl⟩, ⟨rfl, rfl, rfl, rfl⟩, ⟨rfl, rfl, rfl, rfl⟩, ⟨rfl, rfl, rfl, rfl⟩, ⟨rfl, rfl, rfl, rfl⟩,
    launch_adr c, rfl, rfl, rfl, rfl, rfl, rfl, rfl, rfl, rfl, rfl, rfl, rfl, rfl, rfl, rfl, rfl, hcap, rfl, rfl, rfl,
    rfl, rfl⟩

/-- The endpoint and direction of each descriptor (10_state R20). -/
def Slot.endpoint : Slot → BitVec 4 × Dir
  | .ep0Out => (0, .out)
  | .ep0In => (0, .inn)
  | .ep1In => (1, .inn)
  | .ep2Out => (2, .out)
  | .ep2In => (2, .inn)

/-- The table of descriptors and its inverse (10_state R20). -/
theorem slotOf_eq_some {ep : BitVec 4} {dir : Dir} {sl : Slot} : slotOf ep dir = some sl ↔ sl.endpoint = (ep, dir) := by
  constructor
  · intro h
    cases dir with
    | out => rcases slotOf_out h with ⟨rfl, rfl⟩ | ⟨rfl, rfl⟩ <;> rfl
    | inn => rcases slotOf_inn h with ⟨rfl, rfl⟩ | ⟨rfl, rfl⟩ | ⟨rfl, rfl⟩ <;> rfl
  · intro h
    cases sl <;> cases h <;> rfl

theorem dirEnabled_iff (ep : BitVec 4) (dir : Dir) :
    dirEnabled ep dir = true ↔ ep = 0 ∨ (ep = 1 ∧ dir = .inn) ∨ ep = 2 := by
  cases dir <;> revert ep <;> decide

theorem outCallback_eq (ep : BitVec 4) : outCallback ep = if ep = 2 then some .rx else none := by revert ep; decide

theorem inCallback_eq (ep : BitVec 4) : inCallback ep = if ep = 2 then some .txDone else none := by revert ep; decide

/-- Settles O26: the table of descriptors has an inverse. -/
theorem endpointTableAndItsDescriptors : Obligations.EndpointTableAndItsDescriptors := by
  refine fun ep dir => ⟨slotOf_isSome ep dir, dirEnabled_iff ep dir, fun ep' dir' sl h h' => ?_, fun sl => ?_,
    outCallback_eq ep, inCallback_eq ep⟩
  · exact Prod.mk.injEq .. ▸ (slotOf_eq_some.mp h).symm.trans (slotOf_eq_some.mp h')
  · exact ⟨sl.endpoint.1, sl.endpoint.2, slotOf_eq_some.mpr rfl⟩

/-! ## Reset -/

theorem bdtOk_reset : BdtOk State.reset := fun sl => ⟨by cases sl <;> decide, launch_adr _ sl⟩

theorem ringOk_reset : RingOk State.reset :=
  ⟨by decide, by decide, rfl, by decide, by decide, rfl, fun h => by cases h⟩

theorem noFaultOk_reset : NoFaultOk State.reset := ⟨rfl, rfl, rfl, rfl, fun c hc => by cases hc⟩

theorem flowOk_reset : FlowOk State.reset :=
  ⟨rfl, by decide, (fun _ _ h => by cases h), (fun _ h => by cases h), rfl, rfl, rfl, rfl, rfl, rfl⟩

theorem outOk_reset : OutOk State.reset :=
  ⟨rfl, by decide, by decide, (fun _ h => by cases h), fun _ h => by cases h⟩

/-- Settles O55, invariant by invariant. -/
theorem resetMeetsTheInvariants : Obligations.ResetMeetsTheInvariants :=
  ⟨rfl, bdtOk_reset, Nat.zero_le _, rfl, ringOk_reset, rfl, rfl, noFaultOk_reset, flowOk_reset, outOk_reset,
    paramsWf_fixture⟩

end Sys2Proof.Machine

namespace Sys2Proof.Machine

open Sys2Proof.Spec0

/-! ## Stored bytes -/

/-- From `s` to `t` no byte of USB RAM changes but the first `n` of the buffer at `b`. -/
def SameElsewhere (b : BitVec 16) (n : Nat) (s t : State) : Prop :=
  ∀ a : Nat, (∀ k, k < n → a ≠ bufAddr b k) → t.ram.get a = s.ram.get a

theorem SameElsewhere.of_ram {b : BitVec 16} {n : Nat} {s t : State} (h : t.ram = s.ram) : SameElsewhere b n s t :=
  fun a _ => by rw [h]

theorem SameElsewhere.memWrite {s t : State} {b : BitVec 16} {d : List Byte} {n : Nat} (hm : MemOk s)
    (hd : d.length ≤ n) (h : t.ram = memWrite s.ram b d) : SameElsewhere b n s t := by
  intro a ha
  rw [h]
  exact memWrite_get_other b d a hm fun k hk => ha k (Nat.lt_of_lt_of_le hk hd)

theorem SameElsewhere.trans {b : BitVec 16} {n : Nat} {s t u : State} (h : SameElsewhere b n s t)
    (h' : SameElsewhere b n t u) : SameElsewhere b n s u := fun a ha => (h' a ha).trans (h a ha)

/-! ### What arming operations copy -/

/-- The bytes that the operations copy lie within the first `n` of the buffer at `b` (40_bdt_arming R90). -/
def CopiesInto (s : State) (b : BitVec 16) (n : Nat) (ops : List IsrOp) : Prop :=
  ∀ ep d len t, .arm (.armIn ep (some d) len t) ∈ ops →
    len ≤ n ∧ ∀ sl, slotOf ep .inn = some sl → (s.bd sl).adr = b

section Copies

variable {s : State} {b : BitVec 16} {n : Nat} {ops : List IsrOp}

theorem CopiesInto.tail {op : IsrOp} (h : CopiesInto s b n (op :: ops)) : CopiesInto s b n ops :=
  fun ep d len t hmem => h ep d len t (List.mem_cons_of_mem _ hmem)

theorem CopiesInto.mono {m : Nat} (h : CopiesInto s b n ops) (hnm : n ≤ m) : CopiesInto s b m ops :=
  fun ep d len t hmem => (h ep d len t hmem).imp_left fun hlen => Nat.le_trans hlen hnm

/-- Operations that arm nothing add nothing to what is copied. -/
theorem CopiesInto.append {l : List IsrOp} (h : CopiesInto s b n ops) (hl : ∀ a, .arm a ∉ l) :
    CopiesInto s b n (ops ++ l) :=
  fun ep d len t hmem => h ep d len t ((List.mem_append.mp hmem).resolve_right (hl _))

/-- Whether the operations copy into a buffer depends on where the buffers lie alone. -/
theorem CopiesInto.of_adr {u : State} (h : CopiesInto s b n ops) (hadr : ∀ sl, (u.bd sl).adr = (s.bd sl).adr) :
    CopiesInto u b n ops :=
  fun ep d len t hmem => (h ep d len t hmem).imp_right fun hb sl hs => (hadr sl).trans (hb sl hs)

theorem copiesInto_nil : CopiesInto s b n [] := by simp [CopiesInto]

theorem copiesInto_rearm (ep : BitVec 4) (t : Bool) : CopiesInto s b n [.arm (.armOut ep t)] := by simp [CopiesInto]

theorem copiesInto_acknowledge : CopiesInto s b n acknowledge := by simp [CopiesInto, acknowledge]

/-- A response of `n` bytes goes to the first `n` bytes of the EP0 IN buffer (41_control_transfer R97 to R99). -/
theorem copiesInto_respond (d : List Byte) : CopiesInto s s.bdt.ep0In.adr n (respond d n) := by
  intro ep d' len t hmem
  obtain ⟨rfl, -, rfl, -⟩ : ep = 0 ∧ d' = d ∧ len = n ∧ t = true := by simpa [respond] using hmem
  exact ⟨Nat.le_refl _, by rintro _ ⟨⟩; rfl⟩

end Copies

theorem ArmOp.run_sameElsewhere {a : ArmOp} {k : List IsrOp} {s u : State} {b : BitVec 16} {n : Nat} (hm : MemOk s)
    (ha : CopiesInto s b n (.arm a :: k)) (hr : a.run s = .done u) : SameElsewhere b n s u := by
  cases a with
  | armOut =>
    obtain ⟨sl, -, -, rfl⟩ := armOutRun_done hr
    exact .of_ram (State.setBd_ram ..)
  | stallIn =>
    obtain ⟨sl, -, -, rfl⟩ := stallInRun_done hr
    exact .of_ram (State.setBd_ram ..)
  | armIn ep data len t =>
    obtain ⟨sl, hs, -, -, rfl⟩ := armInRun_done hr
    cases data with
    | none => exact .of_ram (State.setBd_ram ..)
    | some d =>
      obtain ⟨hlen, hadr⟩ := ha ep d len t List.mem_cons_self
      exact .memWrite (d := armBytes d len s.free) hm (by rwa [armBytes_length]) (by simp [armInDone, hadr sl hs])

theorem ArmOp.run_adr {a : ArmOp} {s u : State} (hr : a.run s = .done u) (sl : Slot) :
    (u.bd sl).adr = (s.bd sl).adr := by
  obtain ⟨sl', -, -, -, hbd, -⟩ := ArmOp.run_done hr
  rw [hbd]
  split
  · next h => rw [ArmOp.armed_adr, h]
  · rfl

/-! ### What an invocation stores -/

/-- The two states have the same USB RAM, and their packet buffers at the same addresses. -/
def SameBuffers (s t : State) : Prop := t.ram = s.ram ∧ ∀ sl, (t.bd sl).adr = (s.bd sl).adr

/-- From `s` to `u` an invocation has stored within the first `n` bytes at `b`, and no packet buffer has moved. -/
structure StoresInto (b : BitVec 16) (n : Nat) (s u : State) : Prop where
  mem : MemOk u
  adr : ∀ sl, (u.bd sl).adr = (s.bd sl).adr
  elsewhere : SameElsewhere b n s u

theorem StoresInto.of_sameBuffers {b : BitVec 16} {n : Nat} {s u : State} (hm : MemOk s) (h : SameBuffers s u) :
    StoresInto b n s u := by
  obtain ⟨hram, hadr⟩ := h
  exact ⟨by unfold MemOk; rwa [hram], hadr, .of_ram hram⟩

theorem StoresInto.arm {b : BitVec 16} {n : Nat} {s u v : State} {a : ArmOp} {k : List IsrOp}
    (h : StoresInto b n s u) (ha : CopiesInto s b n (.arm a :: k)) (hr : a.run u = .done v) : StoresInto b n s v :=
  ⟨ArmOp.run_memOk hr h.mem, fun sl => (ArmOp.run_adr hr sl).trans (h.adr sl),
    h.elsewhere.trans (ArmOp.run_sameElsewhere h.mem (ha.of_adr h.adr) hr)⟩

/-- The rest of an invocation stores what its arming operations copy (42_dispatcher R121). -/
theorem storesRule (b : BitVec 16) (n : Nat) (s : State) :
    DriveRule (fun l u => CopiesInto s b n l ∧ StoresInto b n s u) (SameElsewhere b n s) where
  pktdisOff := fun _ _ ⟨hops, hu⟩ => ⟨hops.tail, hu.mem, hu.adr, hu.elsewhere⟩
  dequeue := fun _ _ ⟨hops, hu⟩ => ⟨hops.tail, hu.mem, hu.adr, hu.elsewhere⟩
  arm := fun _ _ _ _ ⟨hops, hu⟩ hr => ⟨hops.tail, hu.arm hops hr⟩
  stop := fun _ ⟨_, hu⟩ => hu.elsewhere
  ret := fun _ _ ⟨_, hu⟩ => hu.elsewhere
  hold := fun _ _ _ ⟨_, hu⟩ => hu.elsewhere
  raise _ _ h := h

/-! ### What a plan stores -/

/-- The plan of a rule from `s` writes no byte of USB RAM itself, and its operations copy into the first `n` bytes
at `b`. -/
def PlanCopiesInto (b : BitVec 16) (n : Nat) (s : State) (p : Plan) : Prop :=
  ∀ s1 ops, p = .ok (s1, ops) → SameBuffers s s1 ∧ CopiesInto s b n ops

section Plans

variable {b : BitVec 16} {n : Nat} {s : State}

theorem PlanCopiesInto.ok {s1 : State} {ops : List IsrOp} (hs : SameBuffers s s1) (hops : CopiesInto s b n ops) :
    PlanCopiesInto b n s (.ok (s1, ops)) := by
  rintro _ _ ⟨⟩
  exact ⟨hs, hops⟩

theorem PlanCopiesInto.mono {m : Nat} {p : Plan} (h : PlanCopiesInto b n s p) (hnm : n ≤ m) :
    PlanCopiesInto b m s p := fun s1 ops hp => by
  obtain ⟨hs, hops⟩ := h s1 ops hp
  exact ⟨hs, hops.mono hnm⟩

theorem PlanCopiesInto.error (c : Fault) : PlanCopiesInto b n s (.error c) := by rintro _ _ ⟨⟩

theorem planNothing_copies : PlanCopiesInto b n s (planNothing s) := .ok ⟨rfl, fun _ => rfl⟩ copiesInto_nil

theorem PlanCopiesInto.outHandler {p : Plan} (h : PlanCopiesInto b n s p) (endp : BitVec 4) :
    PlanCopiesInto b n s (outHandler endp p) := by
  rcases p with c | ⟨s1, ops⟩
  · exact .error c
  · obtain ⟨hs, hops⟩ := h s1 ops rfl
    refine .ok hs (hops.append fun a => ?_)
    unfold outEnd
    split <;> simp

end Plans

theorem respLen_eq (w : BitVec 16) (d : List Byte) : respLen w d = min w.toNat (min 64 d.length) :=
  Nat.min_assoc ..

theorem stringDesc_length (d : List Byte) : (stringDesc d).length = 2 + d.length := Nat.add_comm d.length 2

/-- The row of a SETUP packet stores its response (41_control_transfer R97 to R107). -/
theorem setupPlan_copies (i : Instr) (s : State) :
    PlanCopiesInto s.bdt.ep0In.adr (responseLen i s) s (setupPlan i s) := by
  have keep (c : Ctrl) (p : Option (BitVec 7)) : SameBuffers s { s with ctrl := c, pendAddr := p } :=
    ⟨rfl, fun _ => rfl⟩
  have drop {n : Nat} : PlanCopiesInto s.bdt.ep0In.adr n s (planDrop s) := .ok (keep ..) copiesInto_nil
  cases i
  case getDescriptorDevice => exact .ok (keep ..) (copiesInto_respond _)
  case getDescriptorConfiguration h index wIndex wLength =>
    cases hc : s.cfg.catalog.confs[index.toNat]? with
    | none => simpa only [setupPlan, planConfiguration, hc] using drop
    | some c =>
      simp only [setupPlan, planConfiguration, responseLen, hc, ← respLen_eq]
      exact .ok (keep ..) (copiesInto_respond _)
  case getDescriptorString h index wIndex wLength =>
    cases hd : s.cfg.catalog.strs[index.toNat]? with
    | none => simpa only [setupPlan, planString, hd] using drop
    | some d =>
      simp only [setupPlan, planString, responseLen, hd, ← stringDesc_length, ← respLen_eq]
      exact .ok (keep ..) (copiesInto_respond _)
  case getDescriptorDeviceQualifier => exact .ok (keep ..) (by simp [CopiesInto])
  case setAddress => exact .ok (keep ..) copiesInto_acknowledge
  case setConfiguration => exact .ok (keep ..) copiesInto_acknowledge
  case classNodata =>
    rw [setupPlan, planClassNodata_eq]
    exact .ok (keep ..) copiesInto_acknowledge
  case vendorNodata =>
    rw [setupPlan, planClassNodata_eq]
    exact .ok (keep ..) copiesInto_acknowledge
  case classData => exact .ok (keep ..) (copiesInto_rearm _ _)
  case vendorData => exact .ok (keep ..) (copiesInto_rearm _ _)
  all_goals exact drop

theorem planEp0Out_copies {b : BitVec 16} {n : Nat} (s : State) : PlanCopiesInto b n s (planEp0Out s) := by
  unfold planEp0Out
  split
  · refine .ok ?_ copiesInto_acknowledge
    rw [process_frame]
    exact ⟨rfl, fun _ => rfl⟩
  · exact .ok ⟨rfl, fun _ => rfl⟩ (copiesInto_rearm _ _)

theorem planRxCallback_copies {b : BitVec 16} {n : Nat} (d : List Byte) (s : State) :
    PlanCopiesInto b n s (planRxCallback d s) := by
  refine .ok ?_ (copiesInto_rearm _ _)
  rw [rxStore_frame]
  exact ⟨rfl, fun _ => rfl⟩

/-- Of the OUTDONE8 rows EP0_SETUP alone stores, the response to the packet (42_dispatcher R118). -/
theorem outDonePlan_copies (i : Instr) (s : State) :
    PlanCopiesInto s.bdt.ep0In.adr (if i = .ep0Setup then packetLen s else 0) s (outDonePlan i s) := by
  cases i
  case ep0Setup => exact (setupPlan_copies _ s).outHandler 0
  case ep0TokenOut => exact (planEp0Out_copies s).outHandler 0
  case dataTokenOut => exact (planRxCallback_copies _ s).outHandler _
  case epxSetup endp => exact planNothing_copies.outHandler endp
  case epxTokenOut endp => exact planNothing_copies.outHandler endp
  case outAck endp => exact planNothing_copies.outHandler endp
  case outOtherPid endp pid => exact planNothing_copies.outHandler endp
  all_goals exact planNothing_copies

theorem decodeOutDone_eq_ep0Setup (ep pid : BitVec 4) :
    decodeOutDone ep pid = .ep0Setup ↔ ep = 0 ∧ pid = Pid.setup := by
  revert ep pid
  decide

/-- A completion of endpoint 0 with the PID of SETUP stores the response to the packet, every other completion nothing
(42_dispatcher R118). -/
theorem outDonePlan_decode_copies (ep pid : BitVec 4) (s : State) :
    PlanCopiesInto s.bdt.ep0In.adr (if ep = 0 ∧ pid = Pid.setup then packetLen s else 0) s
      (outDonePlan (decodeOutDone ep pid) s) := by
  simpa only [decodeOutDone_eq_ep0Setup] using outDonePlan_copies (decodeOutDone ep pid) s

theorem planOutComplete_copies (ep : BitVec 4) (s : State) :
    PlanCopiesInto s.bdt.ep0In.adr (if ep = 0 ∧ s.bdt.ep0Out.pid = Pid.setup then packetLen s else 0) s
      (planOutComplete ep s) := by
  unfold planOutComplete
  cases hs : slotOf ep .out with
  | none => exact .error _
  | some sl =>
    have hcopies := outDonePlan_decode_copies ep (s.bd sl).pid s
    rcases slotOf_out hs with ⟨rfl, rfl⟩ | ⟨rfl, rfl⟩
    · exact hcopies
    · simpa using hcopies

theorem planTrnOut_copies (ep : BitVec 4) (s : State) :
    PlanCopiesInto s.bdt.ep0In.adr (if ep = 0 ∧ s.bdt.ep0Out.pid = Pid.setup then packetLen s else 0) s
      (planTrnOut ep s) := by
  have hcopies := planOutComplete_copies ep s
  unfold planTrnOut
  generalize planOutComplete ep s = p at hcopies ⊢
  rcases p with c | ⟨s1, ops⟩
  · exact .error c
  · obtain ⟨hs, hops⟩ := hcopies s1 ops rfl
    exact .ok hs (hops.append (by simp))

theorem inComplete_sameBuffers (ep : BitVec 4) (s : State) : SameBuffers s (inComplete ep s) := by
  rcases inComplete_cases ep s with ⟨a, -, heq⟩ | ⟨-, -, heq⟩ | ⟨-, -, heq⟩ <;> rw [heq] <;> exact ⟨rfl, fun _ => rfl⟩

theorem onStall_sameBuffers (s : State) : SameBuffers s (onStall s) := by
  rw [onStall_eq]
  have released (c : Bool) (b : BD) : (if c = true then releasedStall b else b).adr = b.adr := by cases c <;> rfl
  refine ⟨rfl, fun sl => ?_⟩
  cases sl with
  | ep0In | ep1In | ep2In => exact released _ _
  | ep0Out | ep2Out => rfl

theorem planTrnIn_copies {b : BitVec 16} {n : Nat} (ep : BitVec 4) (s : State) :
    PlanCopiesInto b n s (planTrnIn ep s) := .ok (inComplete_sameBuffers ep s) (by simp [CopiesInto])

theorem planOnStall_copies {b : BitVec 16} {n : Nat} (s : State) : PlanCopiesInto b n s (planOnStall s) :=
  .ok (onStall_sameBuffers s) copiesInto_nil

/-- A dispatcher row stores what the completion it serves stores (42_dispatcher R112 to R118). -/
theorem irqPlan_copies {i : Instr} (h : i.format = .irq16) (s : State) :
    PlanCopiesInto s.bdt.ep0In.adr (storedLen i s) s (irqPlan i s) := by
  cases i
  case dispatchReset => exact .ok ⟨rfl, fun _ => rfl⟩ copiesInto_nil
  case dispatchStall => exact planOnStall_copies s
  case dispatchTrnIn ep => exact planTrnIn_copies ep s
  case dispatchTrnOut ep => exact planTrnOut_copies ep s
  case dispatchError stallf trnf dir ep =>
    cases stallf with
    | true => exact planOnStall_copies { s with ueir := 0 }
    | false =>
      cases trnf with
      | false => exact .ok ⟨rfl, fun _ => rfl⟩ copiesInto_nil
      | true =>
        cases dir with
        | inn => exact planTrnIn_copies ep { s with ueir := 0 }
        | out =>
          have hlen : storedLen (.dispatchError false true .out ep) s = storedLen (.dispatchTrnOut ep) s := by
            simp [storedLen]
          rw [hlen]
          exact planTrnOut_copies ep { s with ueir := 0 }
  all_goals cases h

/-- A PID4 row stores only as PID_SETUP with a completion of endpoint 0 at the head of USTATQ (log entry 7). -/
theorem planClassify_copies {i : Instr} (h : i.format = .pid4) (s : State) :
    PlanCopiesInto s.bdt.ep0In.adr (storedLen i s) s (planClassify (pidCode i) s) := by
  unfold planClassify
  split
  · exact planNothing_copies
  · next c q hq =>
    split
    · next hdir =>
      have hcopies := outDonePlan_decode_copies c.ep (pidCode i) s
      split at hcopies
      · next hsetup =>
        obtain ⟨hep, hpid⟩ := hsetup
        obtain rfl := pidCode_setup h hpid
        have hhead : s.ustatq.head? = some ⟨0, .out⟩ := by rw [hq, ← hep, ← hdir]; rfl
        simpa only [storedLen, hhead, if_true] using hcopies
      · exact hcopies.mono (Nat.zero_le _)
    · exact planNothing_copies

/-! ### What a row stores -/

/-- A row that runs as an invocation stores what its plan copies (42_dispatcher R111, R121). -/
theorem isrInvoke_sameElsewhere {b : BitVec 16} {n : Nat} {plan : State → Plan} {s t : State} (hm : MemOk s)
    (hp : PlanCopiesInto b n s.enterIsr (plan s.enterIsr)) (h : isrInvoke plan s = .next t) :
    SameElsewhere b n s t := by
  obtain ⟨-, ⟨s1, ops, heq, rfl⟩ | ⟨c, rfl⟩⟩ := isrInvoke_cases h
  · obtain ⟨hs, hops⟩ := hp s1 ops heq
    exact (storesRule b n s).drive _ (.of_ram rfl) ⟨hops.append (by simp), .of_sameBuffers hm hs⟩
  · exact .of_ram rfl

theorem isrRow_sameElsewhere {b : BitVec 16} {n : Nat} {plan : State → Plan} {s t : State} (hm : MemOk s)
    (hk : s.kisr = .inactive) (hp : PlanCopiesInto b n s.enterIsr (plan s.enterIsr)) (h : isrRow plan s = .next t) :
    SameElsewhere b n s t := by
  rw [isrRow_of_inactive hk] at h
  exact isrInvoke_sameElsewhere hm hp h

/-- Everything a call of FG can do: its first step moves, holds or faults (60_exceptions R162). -/
theorem fgCall_next {k : KFg} {s t : State} (h : fgCall k s = .next t) :
    fgStep { s with kfg := k } = .moved t ∨ t = { s with kfg := k } ∨ ∃ c, t = s.raise c := by
  unfold fgCall at h
  repeat' split at h
  case h_1 hm => cases h; exact .inl hm
  case h_2 => cases h; exact .inr (.inl rfl)
  case h_3 => cases h; exact .inr (.inr ⟨_, rfl⟩)
  all_goals cases h

/-- FG writes USB RAM only where it arms (44_byte_stream R137, 40_bdt_arming R93). -/
theorem fgStep_ram {s t : State} (h : fgStep s = .moved t) :
    t.ram = s.ram ∨ (∃ src off n, s.kfg = .write3 src off n)
      ∨ ∃ a u, s.kfg = .arm a ∧ a.run s = .done u ∧ t.ram = u.ram := by
  cases fgMoves h with
  | write3 hk => exact .inr (.inl ⟨_, _, _, hk⟩)
  | arm hk hu => exact .inr (.inr ⟨_, _, hk, hu, rfl⟩)
  | _ => exact .inl rfl

/-- A call that is no arming operation stores nothing up to its first line (44_byte_stream R135, R137). -/
theorem fgCall_ram {k : KFg} {s t : State} (hw : ∀ src off n, k ≠ .write3 src off n) (ha : ∀ a, k ≠ .arm a)
    (h : fgCall k s = .next t) : t.ram = s.ram := by
  rcases fgCall_next h with hm | rfl | ⟨c, rfl⟩
  · rcases fgStep_ram hm with hram | ⟨src, off, n, hk⟩ | ⟨a, u, hk, -⟩
    · exact hram
    · exact absurd hk (hw src off n)
    · exact absurd hk (ha a)
  · rfl
  · rfl

theorem execWriteString_ram {src : List Byte} {s t : State} (h : execWriteString src s = .next t) : t.ram = s.ram := by
  have hk : writeFrom src 0 = .write1 src 0 ∨ writeFrom src 0 = .idle := ite_eq_or_eq ..
  rcases hk with hk | hk <;> exact fgCall_ram (by simp [hk]) (by simp [hk]) h

/-- An arming row stores what it copies, in the ISR or in FG (40_bdt_arming R93). -/
theorem execArm_sameElsewhere {b : BitVec 16} {n : Nat} {a : ArmOp} {s t : State} (hm : MemOk s)
    (hk : s.kisr = .inactive) (ha : CopiesInto s b n [.arm a]) (h : execArm a s = .next t) : SameElsewhere b n s t := by
  unfold execArm at h
  split at h
  · exact isrRow_sameElsewhere hm hk (.ok ⟨rfl, fun _ => rfl⟩ (ha.of_adr (u := s.enterIsr) fun _ => rfl)) h
  · rcases fgCall_next h with hmv | rfl | ⟨c, rfl⟩
    · rcases fgStep_ram hmv with hram | ⟨src, off, n, hk⟩ | ⟨a', u, hk, hu, hram⟩
      · exact .of_ram hram
      · cases hk
      · cases hk
        have hsame : SameElsewhere b n s u := ArmOp.run_sameElsewhere (s := { s with kfg := .arm a }) hm ha hu
        exact hsame.trans (.of_ram hram)
    · exact .of_ram rfl
    · exact .of_ram rfl

/-- INIT's arms copy nothing (70_reset R176, R180). -/
theorem execInit_sameElsewhere {b : BitVec 16} {n : Nat} {s t : State} (hm : MemOk s) (h : execInit s = .next t) :
    SameElsewhere b n s t := by
  obtain rfl := execInit_next h
  have hinit : SameElsewhere b n (initRegisters s) (initArms (initRegisters s)) :=
    (storesRule b n _).drive _ (.of_ram rfl) ⟨by simp [CopiesInto], .of_sameBuffers hm ⟨rfl, fun _ => rfl⟩⟩
  exact hinit

/-- A bus event stores the packet it brings, if it is accepted (45_sie_bus_agent R147, R149). -/
theorem busEvent_sameElsewhere {i : Instr} {s t : State} (hm : MemOk s) (hf : i.format = .busev8)
    (h : exec i s = .next t) : SameElsewhere (storedIn i s) (storedLen i s) s t := by
  cases i
  case busSetup a ep p =>
    replace h : execBusSetup a ep p s = .next t := h
    rcases execBusSetup_cases a ep p s with heq | ⟨-, -, -, -, -, heq⟩ <;> rw [heq] at h <;> cases h
    · exact .of_ram rfl
    · exact .memWrite (d := p.bytes) hm (Nat.le_refl 8) (by rw [receive_eq]; rfl)
  case busOut a ep tog d =>
    replace h : execBusOut a ep tog d s = .next t := h
    rcases execBusOut_cases a ep tog d s with ⟨r, -, heq⟩ | ⟨sl, -, -, -, -, heq⟩ | ⟨sl, hs, -, -, -, -, heq⟩ <;>
      rw [heq] at h <;> cases h
    · exact .of_ram rfl
    · exact .of_ram rfl
    · exact .memWrite (d := d) hm (Nat.le_refl _) (by rw [receive_eq]; simp [storedIn, hs])
  case busIn a ep =>
    replace h : execBusIn a ep s = .next t := h
    rcases execBusIn_cases a ep s with ⟨r, -, heq⟩ | ⟨sl, -, -, -, -, heq⟩ | ⟨sl, -, -, -, -, -, heq⟩ <;>
      rw [heq] at h <;> cases h
    · exact .of_ram rfl
    · exact .of_ram rfl
    · exact .of_ram (by rw [transmit_eq]; rfl)
  case busReset => cases h; exact .of_ram rfl
  case busError k => cases h; exact .of_ram rfl
  all_goals cases hf

/-- A row of CALL8 stores the bytes of `arm_in`, if it is one (40_bdt_arming R90). -/
theorem call_sameElsewhere {i : Instr} {s t : State} (hm : MemOk s) (hk : s.kisr = .inactive)
    (hf : i.format = .call8) (h : exec i s = .next t) : SameElsewhere (storedIn i s) (storedLen i s) s t := by
  cases i
  case init => exact execInit_sameElsewhere hm h
  case readCharacter => exact .of_ram (fgCall_ram (by simp) (by simp) h)
  case writeCharacter b => exact .of_ram (execWriteString_ram (src := [b]) h)
  case writeString src => exact .of_ram (execWriteString_ram h)
  case armOut ep tog => exact execArm_sameElsewhere hm hk (copiesInto_rearm ep tog) h
  case armIn ep data len tog =>
    refine execArm_sameElsewhere hm hk (fun ep' d len' tog' hmem => ?_) h
    obtain ⟨rfl, rfl, rfl, -⟩ : ep' = ep ∧ some d = data ∧ len' = len.toNat ∧ tog' = tog := by simpa using hmem
    exact ⟨by simp [storedLen], fun sl hs => by simp [storedIn, hs]⟩
  case stallIn ep => exact execArm_sameElsewhere hm hk (by simp [CopiesInto]) h
  case rxCallback d => exact isrRow_sameElsewhere hm hk (planRxCallback_copies d _) h
  case txDoneCallback => exact isrRow_sameElsewhere hm hk (.ok ⟨rfl, fun _ => rfl⟩ copiesInto_nil) h
  all_goals cases hf

/-- Every row but `arm_in` and a bus event stores in the EP0 IN buffer (20_memory R48). -/
theorem storedIn_eq_ep0In {i : Instr} (hcall : i.format ≠ .call8) (hbus : i.format ≠ .busev8) (s : State) :
    storedIn i s = s.bdt.ep0In.adr := by
  unfold storedIn
  split
  · exact absurd rfl hcall
  · exact absurd rfl hbus
  · exact absurd rfl hbus
  · rfl

theorem storedLen_setup64 {i : Instr} (h : i.format = .setup64) (s : State) : storedLen i s = responseLen i s := by
  cases i <;> cases h <;> rfl

theorem storedLen_outdone8 {i : Instr} (h : i.format = .outdone8) (s : State) :
    storedLen i s = if i = .ep0Setup then packetLen s else 0 := by
  cases i <;> cases h <;> rfl

/-- Settles O40, format by format: a row's plan copies into the buffer that is named, and nothing else writes. -/
theorem storedBytesAndNoOthers : Obligations.StoredBytesAndNoOthers := by
  intro i s t hm hk h
  change SameElsewhere (storedIn i s) (storedLen i s) s t
  cases hf : i.format with
  | setup64 =>
    rw [exec_setup64 hf] at h
    rw [storedIn_eq_ep0In (by simp [hf]) (by simp [hf]), storedLen_setup64 hf]
    exact isrRow_sameElsewhere hm hk (setupPlan_copies i s.enterIsr) h
  | classreq8 =>
    rw [exec_classreq8 hf] at h
    obtain ⟨l, heq, -⟩ := classReqEffect_eq (i := i) s
    rw [heq] at h
    cases h
    exact .of_ram rfl
  | irq16 =>
    rw [exec_irq16 hf] at h
    rw [storedIn_eq_ep0In (by simp [hf]) (by simp [hf])]
    exact isrInvoke_sameElsewhere hm (irqPlan_copies hf s.enterIsr) h
  | outdone8 =>
    rw [exec_outdone8 hf] at h
    rw [storedIn_eq_ep0In (by simp [hf]) (by simp [hf]), storedLen_outdone8 hf]
    exact isrRow_sameElsewhere hm hk (outDonePlan_copies i s.enterIsr) h
  | pid4 =>
    rw [exec_pid4 hf] at h
    rw [storedIn_eq_ep0In (by simp [hf]) (by simp [hf])]
    exact isrRow_sameElsewhere hm hk (planClassify_copies hf s.enterIsr) h
  | busev8 => exact busEvent_sameElsewhere hm hf h
  | call8 => exact call_sameElsewhere hm hk hf h

end Sys2Proof.Machine

/-! ## Records decode back -/

namespace Sys2Proof.Laws.RoundTrip

/-- The family RoundTrip, over every constructor of `Instr`. -/
theorem holds : ∀ i : Instr, Statement i
  | .getDescriptorDevice .. => getDescriptorDevice _ _ _ _
  | .getDescriptorConfiguration .. => getDescriptorConfiguration _ _ _ _
  | .getDescriptorString .. => getDescriptorString _ _ _ _
  | .getDescriptorDeviceQualifier .. => getDescriptorDeviceQualifier _ _ _ _
  | .getDescriptorOther .. => getDescriptorOther _ _ _ _ _
  | .setAddress .. => setAddress _ _ _ _
  | .setConfiguration .. => setConfiguration _ _ _ _
  | .stdOther .. => stdOther _ _ _ _ _
  | .classNodata .. => classNodata _ _ _ _
  | .classData .. => classData _ _ _ _ _
  | .vendorNodata .. => vendorNodata _ _ _ _
  | .vendorData .. => vendorData _ _ _ _ _
  | .reservedType .. => reservedType _ _ _ _ _
  | .clsSetLineCoding _ => clsSetLineCoding _
  | .clsSetControlLineState _ => clsSetControlLineState _
  | .clsOther .. => clsOther _ _
  | .dispatchReset .. => dispatchReset _ _ _ _ _
  | .dispatchError .. => dispatchError _ _ _ _
  | .dispatchStall .. => dispatchStall _ _ _
  | .dispatchTrnIn _ => dispatchTrnIn _
  | .dispatchTrnOut _ => dispatchTrnOut _
  | .ep0Setup => ep0Setup
  | .epxSetup _ => epxSetup _
  | .ep0TokenOut => ep0TokenOut
  | .dataTokenOut => dataTokenOut
  | .epxTokenOut _ => epxTokenOut _
  | .outAck _ => outAck _
  | .outOtherPid .. => outOtherPid _ _
  | .pidOut => pidOut
  | .pidIn => pidIn
  | .pidSof => pidSof
  | .pidSetup => pidSetup
  | .pidData0 => pidData0
  | .pidData1 => pidData1
  | .pidAck => pidAck
  | .pidNak => pidNak
  | .pidStall => pidStall
  | .init => init
  | .readCharacter => readCharacter
  | .writeCharacter _ => writeCharacter _
  | .writeString _ => writeString _
  | .armOut .. => armOut _ _
  | .armIn .. => armIn _ _ _ _
  | .stallIn _ => stallIn _
  | .rxCallback _ => rxCallback _
  | .txDoneCallback => txDoneCallback
  | .busSetup .. => busSetup _ _ _
  | .busOut .. => busOut _ _ _ _
  | .busIn .. => busIn _ _
  | .busReset => busReset
  | .busError _ => busError _

end Sys2Proof.Laws.RoundTrip

namespace Sys2Proof

open Machine Spec0

/-- Settles O45, by the round trip of each constructor. -/
theorem decodeInvertsEncode : Obligations.DecodeInvertsEncode := Laws.RoundTrip.holds

/-! ### The fields of a packet, and the packet with these fields (30_encoding R65, R66) -/

theorem reqByte_append (b : Byte) : b.extractLsb' 7 1 ++ b.extractLsb' 5 2 ++ b.extractLsb' 0 5 = (b : BitVec 8) := by
  revert b
  decide

theorem SetupPkt.make_fields (p : SetupPkt) :
    SetupPkt.make p.head p.reqType p.bRequest p.wValue p.wIndex p.wLength = p := by
  simp [SetupPkt.make, SetupPkt.head, SetupPkt.reqType, SetupPkt.bRequest, SetupPkt.wValue, SetupPkt.wIndex,
    SetupPkt.wLength, reqByte_append]

theorem reqType_eq_three {ty : BitVec 2} (h0 : ty ≠ 0) (h1 : ty ≠ 1) (h2 : ty ≠ 2) : ty = 3 := by
  revert ty
  decide

/-- A packet is the one its fields make. -/
theorem SetupPkt.bytes_eq_make {p : SetupPkt} {ty : BitVec 2} (h : p.reqType = ty) :
    p.bytes = (SetupPkt.make p.head ty p.bRequest p.wValue p.wIndex p.wLength).bytes := by
  rw [← h, p.make_fields]

/-- No row drops a bit of its packet: what the selection has compared is what the encoder writes back. -/
theorem encode_decodeSetup (p : SetupPkt) : encode (decodeSetup p) = p.bytes := by
  unfold decodeSetup
  split
  · next h0 =>
    rw [SetupPkt.bytes_eq_make h0]
    repeat' split
    all_goals simp [encode, SetupPkt.wValue, *]
  next h0 =>
  split
  · next h1 =>
    rw [SetupPkt.bytes_eq_make h1]
    split <;> simp [encode, *]
  next h1 =>
  split
  · next h2 =>
    rw [SetupPkt.bytes_eq_make h2]
    split <;> simp [encode, *]
  next h2 =>
  rw [SetupPkt.bytes_eq_make (reqType_eq_three h0 h1 h2), encode]

theorem decodeSetup_wellFormed (p : SetupPkt) : (decodeSetup p).wellFormed = true := by
  unfold decodeSetup
  repeat' split
  all_goals simp_all [Instr.wellFormed]

/-- Settles O46: a packet is the one its row's fields make. -/
theorem setupDecodingLosesNothing : Obligations.SetupDecodingLosesNothing := fun p0 p1 p2 p3 p4 p5 p6 p7 =>
  let p : SetupPkt := ⟨p0, p1, p2, p3, p4, p5, p6, p7⟩
  ⟨decodeSetup p, rfl, decodeSetup_wellFormed p, decodeSetup_format p, encode_decodeSetup p⟩

/-! ## The decoder and the opcode table (30_encoding R88)

What each row of a format's table asks of a word is said once per format (`table…_matches`); the row a decoder selects
is then the matching one of the lowest priority number (`Picks`), branch by branch of the selection. -/

/-! ### Masked words, byte by byte -/

theorem append_and_beq_append {m n : Nat} (a x q : BitVec m) (b y r : BitVec n) :
    ((a ++ b) &&& (x ++ y) == q ++ r) = (a &&& x == q && b &&& y == r) := by
  rw [BitVec.and_append, Bool.eq_iff_iff, Bool.and_eq_true, beq_iff_eq, beq_iff_eq, beq_iff_eq]
  constructor
  · intro h
    exact ⟨by simpa only [BitVec.extractLsb'_append_eq_left] using congrArg (BitVec.extractLsb' n m) h,
      by simpa only [BitVec.extractLsb'_append_eq_right] using congrArg (BitVec.extractLsb' 0 n) h⟩
  · rintro ⟨rfl, rfl⟩
    rfl

/-- The eight bytes of a word (30_encoding R65). -/
def SetupPkt.ofWord (w : BitVec 64) : SetupPkt :=
  ⟨w.extractLsb' 0 8, w.extractLsb' 8 8, w.extractLsb' 16 8, w.extractLsb' 24 8, w.extractLsb' 32 8, w.extractLsb' 40 8,
    w.extractLsb' 48 8, w.extractLsb' 56 8⟩

theorem SetupPkt.word_ofWord (w : BitVec 64) : (SetupPkt.ofWord w).word = w := by
  unfold SetupPkt.word SetupPkt.ofWord
  dsimp only
  iterate 7 rw [BitVec.extractLsb'_append_extractLsb'_eq_extractLsb']
  exact BitVec.extractLsb'_eq_self
  all_goals rfl

theorem SetupPkt.word_and_beq_word (p m q : SetupPkt) :
    (p.word &&& m.word == q.word)
      = (p.p7 &&& m.p7 == q.p7 && p.p6 &&& m.p6 == q.p6 && p.p5 &&& m.p5 == q.p5 && p.p4 &&& m.p4 == q.p4
        && p.p3 &&& m.p3 == q.p3 && p.p2 &&& m.p2 == q.p2 && p.p1 &&& m.p1 == q.p1 && p.p0 &&& m.p0 == q.p0) := by
  unfold SetupPkt.word
  repeat rw [append_and_beq_append]

/-- A row matches a word exactly when each byte of the word, masked, is that byte of the pattern (30_encoding R88). -/
theorem TableRow.matchesWord_word (r : TableRow) (p : SetupPkt) :
    r.matchesWord p.word =
      let m := SetupPkt.ofWord r.mask
      let q := SetupPkt.ofWord r.pattern
      (p.p7 &&& m.p7 == q.p7 && p.p6 &&& m.p6 == q.p6 && p.p5 &&& m.p5 == q.p5 && p.p4 &&& m.p4 == q.p4
        && p.p3 &&& m.p3 == q.p3 && p.p2 &&& m.p2 == q.p2 && p.p1 &&& m.p1 == q.p1 && p.p0 &&& m.p0 == q.p0) := by
  dsimp only
  rw [← SetupPkt.word_and_beq_word, SetupPkt.word_ofWord, SetupPkt.word_ofWord, TableRow.matchesWord]

theorem and_ff (b : Byte) : b &&& 0xFF#8 = b := BitVec.and_allOnes

/-! ### What each row asks of a word -/

/-- The type bits of `bmRequestType`, masked (30_encoding R66). -/
theorem reqType_masked (p : SetupPkt) :
    (p.p0 &&& 0x60#8 == 0x00#8) = (p.reqType == 0) ∧ (p.p0 &&& 0x60#8 == 0x20#8) = (p.reqType == 1)
      ∧ (p.p0 &&& 0x60#8 == 0x40#8) = (p.reqType == 2) ∧ (p.p0 &&& 0x60#8 == 0x60#8) = (p.reqType == 3) := by
  unfold SetupPkt.reqType
  generalize p.p0 = b
  revert b
  decide

theorem wLength_beq_zero (p : SetupPkt) : (p.p7 == 0#8 && p.p6 == 0#8) = (p.wLength == 0) := by
  have h := append_and_beq_append p.p7 0xFF#8 0#8 p.p6 0xFF#8 0#8
  rw [and_ff, and_ff] at h
  rw [← h, SetupPkt.wLength, le16]
  exact congrArg (· == 0) BitVec.and_allOnes

/-- What each SETUP64 row asks of a packet (30_encoding R84). -/
theorem tableSetup64_matches (p : SetupPkt) :
    tableSetup64.map (·.matchesWord p.word) =
      [p.p3 == 0x01 && p.bRequest == 0x06 && p.reqType == 0, p.p3 == 0x02 && p.bRequest == 0x06 && p.reqType == 0,
        p.p3 == 0x03 && p.bRequest == 0x06 && p.reqType == 0, p.p3 == 0x06 && p.bRequest == 0x06 && p.reqType == 0,
        p.bRequest == 0x06 && p.reqType == 0, p.bRequest == 0x05 && p.reqType == 0,
        p.bRequest == 0x09 && p.reqType == 0, p.reqType == 0, p.wLength == 0 && p.reqType == 1, p.reqType == 1,
        p.wLength == 0 && p.reqType == 2, p.reqType == 2, p.reqType == 3] := by
  simp [tableSetup64, TableRow.matchesWord_word, SetupPkt.ofWord, and_ff, reqType_masked, wLength_beq_zero,
    SetupPkt.bRequest]

theorem tableClassreq8_matches (c : Byte) :
    tableClassreq8.map (·.matchesWord (c.setWidth 64)) = [c == 0x20, c == 0x22, true] := by
  revert c
  decide

/-- The word of an IRQ16 record, as eight bytes. -/
theorem irqWord_eq (uir ustat : Byte) :
    (ustat ++ uir : BitVec 16).setWidth 64 = SetupPkt.word ⟨uir, ustat, 0, 0, 0, 0, 0, 0⟩ := by
  apply BitVec.eq_of_toNat_eq
  unfold SetupPkt.word
  rw [BitVec.toNat_append, BitVec.toNat_append, BitVec.toNat_setWidth, BitVec.toNat_append]
  have hlt : ustat.toNat <<< 8 ||| uir.toNat < 2 ^ 64 := by
    rw [← BitVec.toNat_append]
    omega
  simpa using Nat.mod_eq_of_lt hlt

/-- The flags of UIR, masked (30_encoding R75). -/
theorem uir_masked (b : Byte) :
    (b &&& 0x01#8 == 0x01#8) = b.getLsbD 0 ∧ (b &&& 0x03#8 == 0x02#8) = (!b.getLsbD 0 && b.getLsbD 1)
      ∧ (b &&& 0x21#8 == 0x20#8) = (!b.getLsbD 0 && b.getLsbD 5)
      ∧ (b &&& 0x29#8 == 0x08#8) = (!b.getLsbD 0 && !b.getLsbD 5 && b.getLsbD 3) := by
  revert b
  decide

/-- The direction bit of USTAT, masked (30_encoding R74). -/
theorem ustat_masked (b : Byte) :
    (b &&& 0x04#8 == 0x04#8) = b.getLsbD 2 ∧ (b &&& 0x04#8 == 0x00#8) = !b.getLsbD 2 := by
  revert b
  decide

/-- What each IRQ16 row asks of the registers (30_encoding R83). -/
theorem tableIrq16_matches (uir ustat : Byte) :
    tableIrq16.map (·.matchesWord ((ustat ++ uir : BitVec 16).setWidth 64)) =
      [uir.getLsbD 0, !uir.getLsbD 0 && uir.getLsbD 1, !uir.getLsbD 0 && uir.getLsbD 5,
        ustat.getLsbD 2 && (!uir.getLsbD 0 && !uir.getLsbD 5 && uir.getLsbD 3),
        !ustat.getLsbD 2 && (!uir.getLsbD 0 && !uir.getLsbD 5 && uir.getLsbD 3)] := by
  rw [irqWord_eq]
  simp only [tableIrq16, List.map_cons, List.map_nil, TableRow.matchesWord_word, SetupPkt.ofWord]
  simp [uir_masked, ustat_masked]

/-- What each OUTDONE8 row asks of a completion (30_encoding R83). -/
theorem tableOutdone8_matches (endp pid : BitVec 4) :
    tableOutdone8.map (·.matchesWord ((outDoneByte endp pid).setWidth 64)) =
      [endp == 0 && pid == Pid.setup, pid == Pid.setup, endp == 0 && pid == Pid.out,
        endp == Config.epData && pid == Pid.out, pid == Pid.out, pid == Pid.ack, true] := by
  revert endp pid
  decide

/-- What each PID4 row asks of a code (30_encoding R72). -/
theorem tablePid4_matches (pid : BitVec 4) :
    tablePid4.map (·.matchesWord ((nibbleByte pid).setWidth 64)) =
      [Pid.out, Pid.inn, Pid.sof, Pid.setup, Pid.data0, Pid.data1, Pid.ack, Pid.nak, Pid.stall].map (pid == ·) := by
  revert pid
  decide

/-- The codes of CALL8, in the table's order (30_encoding R81). -/
def callCodes : List Byte := [0x00, 0x01, 0x02, 0x03, 0x10, 0x11, 0x12, 0x20, 0x21]

/-- The codes of BUSEV8, in the table's order (30_encoding R82). -/
def busCodes : List Byte := [0x0D, 0x01, 0x09, 0x10, 0x11]

theorem tableCall8_matches (c : Byte) :
    tableCall8.map (·.matchesWord (c.setWidth 64)) = callCodes.map (c == ·) := by
  revert c
  decide

theorem tableBusev8_matches (c : Byte) :
    tableBusev8.map (·.matchesWord (c.setWidth 64)) = busCodes.map (c == ·) := by
  revert c
  decide

/-! ### The row that is picked -/

/-- The row at position `k` is the matching one of the lowest priority number (30_encoding R88). -/
def Picks (l : List TableRow) (k : Nat) (w : BitVec 64) : Prop :=
  ∃ r, l[k]? = some r ∧ r ∈ l ∧ r.matchesWord w = true
    ∧ ∀ r' ∈ l, r'.matchesWord w = true → r' = r ∨ r.priority < r'.priority

theorem picks_of_matches {l : List TableRow} {k : Nat} {w : BitVec 64} {bs : List Bool} {r : TableRow}
    (h : l.map (·.matchesWord w) = bs) (hr : l[k]? = some r) (hk : bs[k]? = some true)
    (hmin : ∀ x ∈ l.zip bs, x.2 = true → x.1 = r ∨ r.priority < x.1.priority) : Picks l k w := by
  subst h
  have hzip : l.map (fun q => (q, q.matchesWord w)) = l.zip (l.map (·.matchesWord w)) :=
    List.zip_of_prod (by simp [Function.comp_def]) (by simp)
  refine ⟨r, hr, List.mem_of_getElem? hr, by simpa [hr] using hk, fun q hq hm => hmin (q, q.matchesWord w) ?_ hm⟩
  exact hzip ▸ List.mem_map_of_mem hq

theorem decodeSetup_picks (p : SetupPkt) : Picks tableSetup64 (decodeSetup p).rowIndex p.word := by
  unfold decodeSetup
  repeat' split
  case isFalse.isFalse.isFalse h0 h1 h2 =>
    have h3 := reqType_eq_three h0 h1 h2
    exact picks_of_matches (tableSetup64_matches p) rfl (by simp [h3, Instr.rowIndex]) (by simp [tableSetup64, h3])
  all_goals
    exact picks_of_matches (tableSetup64_matches p) rfl (by simp_all [Instr.rowIndex]) (by simp_all [tableSetup64])

theorem decodeClassReq_picks (c : Byte) (payload : Option (List Byte)) :
    Picks tableClassreq8 (decodeClassReq c payload).rowIndex (c.setWidth 64) := by
  unfold decodeClassReq
  repeat' split
  all_goals
    exact picks_of_matches (tableClassreq8_matches c) rfl (by simp_all [Instr.rowIndex]) (by simp_all [tableClassreq8])

theorem decodeIrq_picks {uir ustat : Byte} {i : Instr} (h : decodeIrq uir ustat = some i) :
    Picks tableIrq16 i.rowIndex ((ustat ++ uir : BitVec 16).setWidth 64) := by
  unfold decodeIrq at h
  dsimp only at h
  repeat' split at h
  all_goals cases h
  all_goals
    exact picks_of_matches (tableIrq16_matches uir ustat) rfl (by simp_all [Instr.rowIndex]) (by simp_all [tableIrq16])

theorem decodeOutDone_picks (endp pid : BitVec 4) :
    Picks tableOutdone8 (decodeOutDone endp pid).rowIndex ((outDoneByte endp pid).setWidth 64) := by
  unfold decodeOutDone
  repeat' split
  all_goals
    exact picks_of_matches (tableOutdone8_matches endp pid) rfl (by simp_all [Instr.rowIndex])
      (by simp_all [tableOutdone8, Config.epData, Pid.out, Pid.setup, Pid.ack])

theorem decodePid_picks {pid : BitVec 4} {i : Instr} (h : decodePid pid = some i) :
    Picks tablePid4 i.rowIndex ((nibbleByte pid).setWidth 64) := by
  unfold decodePid at h
  repeat' split at h
  all_goals cases h
  all_goals
    exact picks_of_matches (tablePid4_matches pid) rfl (by simp_all [Instr.rowIndex])
      (by simp_all [tablePid4, Pid.out, Pid.inn, Pid.sof, Pid.setup, Pid.data0, Pid.data1, Pid.ack, Pid.nak, Pid.stall])

/-- The row a record's operation has is the one its word picks. -/
def RecordPicks (f : Format) (bs : List Byte) (i : Instr) : Prop := Picks (tableOf f) i.rowIndex (wordOf f bs)

theorem decodeSetupRec_picks {bs : List Byte} {i : Instr} (h : decodeSetupRec bs = .ok i) :
    RecordPicks .setup64 bs i := by
  unfold decodeSetupRec at h
  split at h <;> cases h
  exact decodeSetup_picks _

theorem decodeClassRec_picks {bs : List Byte} {i : Instr} (h : decodeClassRec bs = .ok i) :
    RecordPicks .classreq8 bs i := by
  unfold decodeClassRec at h
  repeat' split at h
  all_goals cases h
  all_goals exact decodeClassReq_picks _ _

theorem decodeIrqRec_picks {bs : List Byte} {i : Instr} (h : decodeIrqRec bs = .ok i) : RecordPicks .irq16 bs i := by
  unfold decodeIrqRec at h
  split at h
  · split at h <;> cases h
    next hd => exact decodeIrq_picks hd
  · cases h

theorem nibbles_append (b : Byte) : hiNibble b ++ loNibble b = (b : BitVec 8) := by
  revert b
  decide

theorem decodeOutDoneRec_picks {bs : List Byte} {i : Instr} (h : decodeOutDoneRec bs = .ok i) :
    RecordPicks .outdone8 bs i := by
  unfold decodeOutDoneRec at h
  split at h <;> cases h
  next b =>
  have hp := decodeOutDone_picks (hiNibble b) (loNibble b)
  rw [outDoneByte, nibbles_append] at hp
  exact hp

theorem decodePidRec_picks {bs : List Byte} {i : Instr} (h : decodePidRec bs = .ok i) : RecordPicks .pid4 bs i := by
  unfold decodePidRec at h
  split at h
  · next b =>
    split at h
    · next hz =>
      split at h <;> cases h
      next hd =>
      have hp := decodePid_picks hd
      rw [nibbleByte, ← BitVec.ofNat_eq_ofNat, ← hz, nibbles_append] at hp
      exact hp
    · cases h
  · cases h

/-- The position of a CALL8 row is that of its code (30_encoding R81). -/
theorem decodeCallRec_code {c : Byte} {rest : List Byte} {i : Instr} (h : decodeCallRec (c :: rest) = .ok i) :
    callCodes[i.rowIndex]? = some c := by
  rw [decodeCallRec] at h
  unfold noOperands decodeWriteCharacter decodeArmOut decodeArmIn decodeStallIn decodeRxCallback at h
  repeat' split at h
  all_goals cases h
  all_goals simp [callCodes, Instr.rowIndex, *]

/-- The position of a BUSEV8 row is that of its code (30_encoding R82). -/
theorem decodeBusRec_code {c : Byte} {rest : List Byte} {i : Instr} (h : decodeBusRec (c :: rest) = .ok i) :
    busCodes[i.rowIndex]? = some c := by
  rw [decodeBusRec] at h
  unfold noOperands decodeBusSetup decodeBusOut decodeBusIn decodeBusError at h
  repeat' split at h
  all_goals cases h
  all_goals simp [busCodes, Instr.rowIndex, *]

theorem callCode_picks {k : Nat} {c : Byte} (h : callCodes[k]? = some c) : Picks tableCall8 k (c.setWidth 64) := by
  have hk : k < 9 := (List.getElem?_eq_some_iff.mp h).1
  interval_cases k
  all_goals
    cases h
    exact picks_of_matches (tableCall8_matches _) rfl rfl (by decide)

theorem busCode_picks {k : Nat} {c : Byte} (h : busCodes[k]? = some c) : Picks tableBusev8 k (c.setWidth 64) := by
  have hk : k < 5 := (List.getElem?_eq_some_iff.mp h).1
  interval_cases k
  all_goals
    cases h
    exact picks_of_matches (tableBusev8_matches _) rfl rfl (by decide)

theorem decodeCallRec_picks {bs : List Byte} {i : Instr} (h : decodeCallRec bs = .ok i) : RecordPicks .call8 bs i := by
  cases bs with
  | nil => cases h
  | cons c rest => exact callCode_picks (decodeCallRec_code h)

theorem decodeBusRec_picks {bs : List Byte} {i : Instr} (h : decodeBusRec bs = .ok i) : RecordPicks .busev8 bs i := by
  cases bs with
  | nil => cases h
  | cons c rest => exact busCode_picks (decodeBusRec_code h)

theorem decode_picks {f : Format} {bs : List Byte} {i : Instr} (h : decode f bs = .ok i) : RecordPicks f bs i := by
  cases f with
  | setup64 => exact decodeSetupRec_picks h
  | classreq8 => exact decodeClassRec_picks h
  | irq16 => exact decodeIrqRec_picks h
  | outdone8 => exact decodeOutDoneRec_picks h
  | pid4 => exact decodePidRec_picks h
  | call8 => exact decodeCallRec_picks h
  | busev8 => exact decodeBusRec_picks h

/-! ### Only a code is undefined -/

/-- No error of this part of a record is that its code names nothing (30_encoding R81, R82). -/
def NoCodeError {α : Type} (x : Except DecodeError α) : Prop := ∀ f c, x ≠ .error (.undefinedCode f c)

theorem asBit_noCodeError (f : Format) (b : Byte) : NoCodeError (asBit f b) := by
  intro f' c
  unfold asBit
  repeat' split
  all_goals simp

theorem asAddress_noCodeError (b : Byte) : NoCodeError (asAddress b) := by
  intro f c
  unfold asAddress
  split <;> simp

theorem asEndpoint_noCodeError (b : Byte) : NoCodeError (asEndpoint b) := by
  intro f c
  unfold asEndpoint
  split <;> simp

theorem asPacket_noCodeError (d : List Byte) : NoCodeError (asPacket d) := by
  intro f c
  unfold asPacket
  split <;> simp

theorem asErrKind_noCodeError (b : Byte) : NoCodeError (asErrKind b) := by
  intro f c
  unfold asErrKind
  repeat' split
  all_goals simp

theorem asPayload_noCodeError (f : Format) (bs : List Byte) : NoCodeError (asPayload f bs) := by
  intro f' c
  unfold asPayload
  repeat' split
  all_goals rintro ⟨⟩
  next h => exact asBit_noCodeError f _ _ _ h

theorem noOperands_noCodeError (i : Instr) (bs : List Byte) : NoCodeError (noOperands i bs) := by
  intro f c
  cases bs <;> simp [noOperands]

theorem decodeWriteCharacter_noCodeError (bs : List Byte) : NoCodeError (decodeWriteCharacter bs) := by
  intro f c
  unfold decodeWriteCharacter
  split <;> simp

theorem decodeArmOut_noCodeError (bs : List Byte) : NoCodeError (decodeArmOut bs) := by
  intro f c
  unfold decodeArmOut
  repeat' split
  all_goals rintro ⟨⟩
  · next h => exact asEndpoint_noCodeError _ _ _ h
  · next h => exact asBit_noCodeError _ _ _ _ h

theorem decodeArmIn_noCodeError (bs : List Byte) : NoCodeError (decodeArmIn bs) := by
  intro f c
  unfold decodeArmIn
  repeat' split
  all_goals rintro ⟨⟩
  · next h => exact asEndpoint_noCodeError _ _ _ h
  · next h => exact asBit_noCodeError _ _ _ _ h
  · next h => exact asPayload_noCodeError _ _ _ _ h

theorem decodeStallIn_noCodeError (bs : List Byte) : NoCodeError (decodeStallIn bs) := by
  intro f c
  unfold decodeStallIn
  repeat' split
  all_goals rintro ⟨⟩
  next h => exact asEndpoint_noCodeError _ _ _ h

theorem decodeRxCallback_noCodeError (d : List Byte) : NoCodeError (decodeRxCallback d) := by
  intro f c
  unfold decodeRxCallback
  split <;> rintro ⟨⟩
  next h => exact asPacket_noCodeError _ _ _ h

theorem decodeBusSetup_noCodeError (bs : List Byte) : NoCodeError (decodeBusSetup bs) := by
  intro f c
  unfold decodeBusSetup
  repeat' split
  all_goals rintro ⟨⟩
  · next h => exact asAddress_noCodeError _ _ _ h
  · next h => exact asEndpoint_noCodeError _ _ _ h

theorem decodeBusOut_noCodeError (bs : List Byte) : NoCodeError (decodeBusOut bs) := by
  intro f c
  unfold decodeBusOut
  repeat' split
  all_goals rintro ⟨⟩
  · next h => exact asAddress_noCodeError _ _ _ h
  · next h => exact asEndpoint_noCodeError _ _ _ h
  · next h => exact asBit_noCodeError _ _ _ _ h
  · next h => exact asPacket_noCodeError _ _ _ h

theorem decodeBusIn_noCodeError (bs : List Byte) : NoCodeError (decodeBusIn bs) := by
  intro f c
  unfold decodeBusIn
  repeat' split
  all_goals rintro ⟨⟩
  · next h => exact asAddress_noCodeError _ _ _ h
  · next h => exact asEndpoint_noCodeError _ _ _ h

theorem decodeBusError_noCodeError (bs : List Byte) : NoCodeError (decodeBusError bs) := by
  intro f c
  unfold decodeBusError
  repeat' split
  all_goals rintro ⟨⟩
  next h => exact asErrKind_noCodeError _ _ _ h

/-- CALL8 names exactly the codes of R81. -/
theorem decodeCallRec_undefined (c : Byte) (rest : List Byte) :
    decodeCallRec (c :: rest) = .error (.undefinedCode .call8 c) ↔ c ∉ callCodes := by
  constructor
  · intro h
    rw [decodeCallRec] at h
    split at h
    · exact absurd h (noOperands_noCodeError _ _ _ _)
    split at h
    · exact absurd h (noOperands_noCodeError _ _ _ _)
    split at h
    · exact absurd h (decodeWriteCharacter_noCodeError _ _ _)
    split at h
    · cases h
    split at h
    · exact absurd h (decodeArmOut_noCodeError _ _ _)
    split at h
    · exact absurd h (decodeArmIn_noCodeError _ _ _)
    split at h
    · exact absurd h (decodeStallIn_noCodeError _ _ _)
    split at h
    · exact absurd h (decodeRxCallback_noCodeError _ _ _)
    split at h
    · exact absurd h (noOperands_noCodeError _ _ _ _)
    · simp_all [callCodes]
  · intro h
    simp_all [callCodes, decodeCallRec]

/-- BUSEV8 names exactly the codes of R82. -/
theorem decodeBusRec_undefined (c : Byte) (rest : List Byte) :
    decodeBusRec (c :: rest) = .error (.undefinedCode .busev8 c) ↔ c ∉ busCodes := by
  constructor
  · intro h
    rw [decodeBusRec] at h
    split at h
    · exact absurd h (decodeBusSetup_noCodeError _ _ _)
    split at h
    · exact absurd h (decodeBusOut_noCodeError _ _ _)
    split at h
    · exact absurd h (decodeBusIn_noCodeError _ _ _)
    split at h
    · exact absurd h (noOperands_noCodeError _ _ _ _)
    split at h
    · exact absurd h (decodeBusError_noCodeError _ _ _)
    · simp_all [busCodes]
  · intro h
    simp_all [busCodes, decodeBusRec]

/-- No row matches a code that is none of the codes its table asks for. -/
theorem noRow_iff {l : List TableRow} {codes : List Byte} {c : Byte} {w : BitVec 64}
    (h : l.map (·.matchesWord w) = codes.map (c == ·)) : c ∉ codes ↔ ∀ r ∈ l, r.matchesWord w = false := by
  have hrows : (∀ r ∈ l, r.matchesWord w = false) ↔ ∀ b ∈ l.map (·.matchesWord w), b = false := by simp
  rw [hrows, h]
  simp only [List.forall_mem_map, beq_eq_false_iff_ne]
  exact ⟨fun hn a ha he => hn (he ▸ ha), fun hall hc => hall c hc rfl⟩

/-- Settles O47: the row a selection takes is picked from its table, and the two formats of codes name what their tables
list. -/
theorem decoderAgreesWithTheOpcodeTable : Obligations.DecoderAgreesWithTheOpcodeTable := by
  refine ⟨fun f bs i h => ?_, ?_⟩
  · obtain rfl := decode_format h
    exact ⟨rfl, decode_picks h⟩
  · rintro f c rest (rfl | rfl)
    · exact (decodeCallRec_undefined c rest).trans (noRow_iff (tableCall8_matches c))
    · exact (decodeBusRec_undefined c rest).trans (noRow_iff (tableBusev8_matches c))

end Sys2Proof

namespace Sys2Proof.Machine

open Sys2Proof.Spec0

/-! ## Program lines (30_encoding R87) and placed words (log entries 4 and 5) -/

/-- The rows of the ISR context are those the statements name, and the CLASSREQ8 rows. -/
theorem isrContext_eq (i : Instr) : isrContext i = (isIsrRow i || i.format == .classreq8) := by cases i <;> rfl

theorem isrContext_iff {i : Instr} : isrContext i = true ↔ isIsrRow i = true ∨ i.format = .classreq8 := by
  simp [isrContext_eq]

theorem step_word {s : State} {f : Format} {bs : List Byte} {i : Instr} {rest : List Line} (hfault : s.fault = none)
    (hfeed : s.feed = .word f bs :: rest) (hdec : decode f bs = .ok i) (hline : lineRefusal i s = none) :
    step s = exec i (s.setFeed rest) := by
  simp only [step, agentStep, hfault, hfeed, lineStep, wordLine, hdec, lineRefusal_setFeed, hline]

/-! ### Lines that may run -/

theorem lineRefusal_busev8 {i : Instr} (hf : i.format = .busev8) (s : State) : lineRefusal i s = none := by
  simp only [lineRefusal, hf]

theorem lineRefusal_irq16 {i : Instr} {s : State} (hf : i.format = .irq16) (hr : s.isrReady = true)
    (hshown : irqShown i s = true) : lineRefusal i s = none := by
  simp [lineRefusal, hf, hshown, State.entryRefusal_none.mpr hr]

/-- A row of the ISR context may be a line under the entry condition (42_dispatcher R111). -/
theorem lineRefusal_isrContext {i : Instr} {s : State} (hc : isrContext i = true) (hr : s.isrReady = true) :
    lineRefusal i s = none := by
  unfold lineRefusal
  split
  · rfl
  · next hf => simp [isrContext, hf] at hc
  all_goals simp [hc, State.entryRefusal_none.mpr hr]

/-- A row of FG may be a line where the processor side is FG's (60_exceptions R162, R167), and a bus event there too. -/
theorem lineRefusal_outside {i : Instr} {s : State} (hirq16 : i.format ≠ .irq16) (hc : isrContext i = false)
    (hinisr : s.inisr = false) (hr : s.isrReady = false) : lineRefusal i s = none := by
  unfold lineRefusal
  split
  · rfl
  · next hf => exact absurd hf hirq16
  all_goals simp [hc, hinisr, hr]

/-! ### The flags a placed word needs -/

@[simp] theorem showIrq_rstf (r e st t : Bool) (c : Completion) (s : State) : (showIrq r e st t c s).rstf = r := rfl

@[simp] theorem showIrq_stallf (r e st t : Bool) (c : Completion) (s : State) :
    (showIrq r e st t c s).stallf = st := rfl

@[simp] theorem showIrq_errf (r e st t : Bool) (c : Completion) (s : State) : (showIrq r e st t c s).errf = e := by
  unfold State.errf showIrq
  cases e with
  | false => rfl
  | true => by_cases hu : s.ueir = 0#8 <;> simp [hu, ErrKind.mask]

@[simp] theorem headShown_showIrq (r e st t : Bool) (c : Completion) (s : State) :
    headShown t c (showIrq r e st t c s) = true := by
  cases t <;> simp [headShown, showIrq]

theorem showIrq_irq {r e st t : Bool} (c : Completion) (s : State) (h : (r || e || st || t) = true) :
    (showIrq r e st t c s).irq = true := by
  have htrnf : (showIrq r e st t c s).trnf = t := by cases t <;> rfl
  rw [State.irq, showIrq_errf, htrnf]
  exact h

/-- For a dispatcher row the registers come to show its word (log entry 5). -/
theorem flagsFor_irq16 {i : Instr} (hf : i.format = .irq16) (s : State) :
    (flagsFor i s).irq = true ∧ irqShown i (flagsFor i s) = true := by
  cases i <;> cases hf
  all_goals exact ⟨showIrq_irq _ _ rfl, by simp [flagsFor, irqShown]⟩

/-- For a row of the ISR context that is no dispatcher row, with no flag set, the completion it serves is put into
USTATQ (log entry 5). -/
theorem flagsFor_isrContext {i : Instr} (hc : isrContext i = true) {s : State} (hirq : s.irq = false) :
    flagsFor i s = { s with ustatq := [servedCompletion i] } := by
  cases i <;> cases hc <;> simp [flagsFor, isrContext, Instr.format, hirq]

/-- Every other row needs no flag. -/
theorem flagsFor_other {i : Instr} (hc : isrContext i = false) (hf : i.format ≠ .irq16) (s : State) :
    flagsFor i s = s := by
  unfold flagsFor
  split
  iterate 5 exact absurd rfl hf
  simp [hc]

/-- The states that differ in the interrupt flags alone. -/
def SameButFlags (s t : State) : Prop :=
  t = { s with rstf := t.rstf, ueir := t.ueir, stallf := t.stallf, ustatq := t.ustatq }

/-- Only the interrupt flags are set for a line. -/
theorem flagsFor_sameButFlags (i : Instr) (s : State) : SameButFlags s (flagsFor i s) := by
  unfold flagsFor showIrq
  split
  case h_6 => split <;> rfl
  all_goals rfl

/-! ### Placing a word -/

theorem decodeTableWord_some {nbits w : Nat} {i : Instr} (h : decodeTableWord nbits w = some i) :
    ∃ f bs, tableRecord nbits w = some (f, bs) ∧ decode f bs = .ok i := by
  unfold decodeTableWord at h
  split at h
  · cases h
  · next f bs ht =>
    split at h <;> cases h
    next hd => exact ⟨f, bs, ht, hd⟩

/-- A placed word is run by the next step from the state with the flags it needs. -/
theorem step_withFetchWord {s : State} {nbits w : Nat} {i : Instr} (hfault : s.fault = none)
    (h : decodeTableWord nbits w = some i) (hline : lineRefusal i (flagsFor i s) = none) :
    step (s.withFetchWord nbits w) = exec i (flagsFor i s) := by
  obtain ⟨f, bs, ht, hd⟩ := decodeTableWord_some h
  have hplaced : s.withFetchWord nbits w = (flagsFor i s).setFeed (.word f bs :: s.feed) := by
    simp only [State.withFetchWord, placeWord, ht, hd]
  have hflags : flagsFor i s = _ := flagsFor_sameButFlags i s
  have hf : (flagsFor i s).fault = none := hflags ▸ hfault
  have hfeed : (flagsFor i s).setFeed s.feed = flagsFor i s := hflags ▸ rfl
  have hstep : step ((flagsFor i s).setFeed (.word f bs :: s.feed)) = exec i ((flagsFor i s).setFeed s.feed) :=
    step_word hf rfl hd ((lineRefusal_setFeed ..).trans hline)
  rw [hplaced, hstep, hfeed]

/-- With its flags set the entry condition holds, where it lacked a flag alone (42_dispatcher R111). -/
theorem isrReady_flagsFor {i : Instr} {s : State} (hgie : s.gie = true) (hinisr : s.inisr = false)
    (hirq : (flagsFor i s).irq = true) : (flagsFor i s).isrReady = true := by
  have hflags : flagsFor i s = _ := flagsFor_sameButFlags i s
  have hg : (flagsFor i s).gie = true := hflags ▸ hgie
  have hi : (flagsFor i s).inisr = false := hflags ▸ hinisr
  simp [State.isrReady, hirq, hg, hi]

section Placed

variable {s : State} {i : Instr}

/-- A dispatcher row can run where its flags are set (42_dispatcher R111). -/
theorem isrReady_flagsFor_irq16 (hinisr : s.inisr = false) (hgie : s.gie = true) (hf : i.format = .irq16) :
    (flagsFor i s).isrReady = true := isrReady_flagsFor hgie hinisr (flagsFor_irq16 hf s).1

theorem isrReady_flagsFor_isrContext (hinisr : s.inisr = false) (hgie : s.gie = true) (hirq : s.irq = false)
    (hc : isrContext i = true) : (flagsFor i s).isrReady = true := by
  refine isrReady_flagsFor hgie hinisr ?_
  rw [flagsFor_isrContext hc hirq]
  simp [State.irq, State.trnf]

/-- The flags set for a line are enough for it (log entry 5). -/
theorem lineRefusal_flagsFor (hinisr : s.inisr = false) (hgie : s.gie = true) (hirq : s.irq = false) :
    lineRefusal i (flagsFor i s) = none := by
  by_cases hf : i.format = .irq16
  · exact lineRefusal_irq16 hf (isrReady_flagsFor_irq16 hinisr hgie hf) (flagsFor_irq16 hf s).2
  cases hc : isrContext i with
  | true => exact lineRefusal_isrContext hc (isrReady_flagsFor_isrContext hinisr hgie hirq hc)
  | false =>
    rw [flagsFor_other hc hf]
    exact lineRefusal_outside hf hc hinisr (by simp [State.isrReady, hirq])

end Placed

/-- Settles O41: a line that may run runs its row; the flags set for a placed word are those that let its line run. -/
theorem stepRunsTheDecodedLine : Obligations.StepRunsTheDecodedLine := by
  refine ⟨fun s f bs i rest hfault hfeed hdec hline => step_word hfault hfeed hdec ?_,
    fun s nbits w i hfault hinisr hgie hirq hdec => ?_⟩
  · have hf := decode_format hdec
    rcases hline with rfl | rfl | ⟨hrow, hr⟩ | ⟨rfl, hr, hshown⟩ | ⟨rfl, hrow, hinisr, hr⟩
    · exact lineRefusal_busev8 hf s
    · rfl
    · exact lineRefusal_isrContext (isrContext_iff.mpr (hf ▸ hrow)) hr
    · exact lineRefusal_irq16 hf hr hshown
    · exact lineRefusal_outside (by simp [hf]) (by simp [isrContext_eq, hrow, hf]) hinisr hr
  · refine ⟨flagsFor i s, step_withFetchWord hfault hdec (lineRefusal_flagsFor hinisr hgie hirq),
      flagsFor_sameButFlags i s, fun hrow => ?_, fun hrow => ?_, fun hf => ?_⟩
    · rcases hrow with hf | ⟨hf, hrow⟩
      · exact flagsFor_other (by simp [isrContext, hf]) (by simp [hf]) s
      · exact flagsFor_other (by simp [isrContext_eq, hrow, hf]) (by simp [hf]) s
    · have hc := isrContext_iff.mpr hrow
      exact ⟨isrReady_flagsFor_isrContext hinisr hgie hirq hc, _, flagsFor_isrContext hc hirq⟩
    · exact ⟨isrReady_flagsFor_irq16 hinisr hgie hf, (flagsFor_irq16 hf s).2⟩

end Sys2Proof.Machine

namespace Sys2Proof.Machine

open Sys2Proof.Spec0

/-! ## Bytes of descriptors and registers (30_encoding R70 to R77) -/

/-- The fields of STAT as the processor side writes it (30_encoding R70). -/
theorem cpuStat_fields (own dts dtsen stall : Bool) (bc : BitVec 2) :
    let stat : Byte := BitVec.ofBool own ++ BitVec.ofBool dts ++ 0#2 ++ BitVec.ofBool dtsen ++ BitVec.ofBool stall ++ bc
    cpuView stat = { uown := own, dts := dts, dtsen := dtsen, bstall := stall, bc98 := bc }
      ∧ stat.getLsbD 5 = false ∧ stat.getLsbD 4 = false := by
  revert own dts dtsen stall bc
  decide

/-- The fields of STAT as the SIE leaves it (30_encoding R70). -/
theorem sieStat_fields (own : Bool) (pid : BitVec 4) (bc : BitVec 2) :
    let stat : Byte := BitVec.ofBool own ++ 0#1 ++ pid ++ bc
    sieView stat = { uown := own, pid := pid, bc98 := bc } ∧ stat.getLsbD 6 = false := by
  revert own pid bc
  decide

/-- BC98 are the bits of the byte count above CNT (30_encoding R70). -/
theorem bc98_eq (b : BD) : b.bc.extractLsb' 8 2 = BitVec.ofNat 2 (b.cnt / 256) := by
  apply BitVec.eq_of_toNat_eq
  rw [BD.bc, BitVec.extractLsb'_toNat, BitVec.toNat_ofNat, BitVec.toNat_ofNat, Nat.shiftRight_eq_div_pow]
  omega

theorem cntByte_eq (b : BD) : b.cntByte = BitVec.ofNat 8 b.cnt := by
  apply BitVec.eq_of_toNat_eq
  rw [BD.cntByte, BD.bc, BitVec.extractLsb'_toNat, BitVec.toNat_ofNat, BitVec.toNat_ofNat, Nat.shiftRight_zero]
  omega

theorem loByte_toNat (w : BitVec 16) : (loByte w).toNat = w.toNat % 256 := by
  rw [loByte, BitVec.extractLsb'_toNat, Nat.shiftRight_zero]

theorem hiByte_toNat (w : BitVec 16) : (hiByte w).toNat = w.toNat / 256 := by
  rw [hiByte, BitVec.extractLsb'_toNat, Nat.shiftRight_eq_div_pow]
  omega

/-- Settles O48: the fields of the two composed bytes; the view shown is that of the side that wrote last. -/
theorem descriptorBytesAndTheirViews : Obligations.DescriptorBytesAndTheirViews := by
  intro b check _
  obtain ⟨hcpu, hincdis, hken⟩ := cpuStat_fields (b.own == .sie) b.dts check b.stall (BitVec.ofNat 2 (b.cnt / 256))
  obtain ⟨hsie, hreserved⟩ := sieStat_fields (b.own == .sie) b.pid (BitVec.ofNat 2 (b.cnt / 256))
  rw [← bc98_eq] at hcpu hincdis hken hsie hreserved
  rw [← bc98_eq]
  exact ⟨hcpu, hincdis, hken, hsie, hreserved, cntByte_eq b, loByte_toNat b.adr, hiByte_toNat b.adr, fun _ => rfl,
    fun _ _ => rfl, rfl, rfl, fun _ => rfl⟩

/-- UIR, bit by bit (30_encoding R75). -/
theorem uirByte_getLsbD (rstf errf trnf stallf : Bool) :
    ∀ n < 8, (uirByte rstf errf trnf stallf).getLsbD n
      = (n == 0 && rstf || n == 1 && errf || n == 3 && trnf || n == 5 && stallf) := by
  revert rstf errf trnf stallf
  decide

/-- USTAT of a completion, field by field (30_encoding R74). -/
theorem ustatByte_fields (dir : Dir) (endp : BitVec 4) :
    (ustatByte dir endp).extractLsb' 3 4 = endp ∧ (ustatByte dir endp).getLsbD 2 = (dir == .inn)
      ∧ (ustatByte dir endp).getLsbD 1 = false ∧ (ustatByte dir endp).getLsbD 0 = false
      ∧ (ustatByte dir endp).getLsbD 7 = false := by
  cases dir <;> revert endp <;> decide

/-- Whatever the free bits of UCON are, bit 4 is the one that is put there (30_encoding R77). -/
theorem ucon_bit4 (free : Byte) (pktdis : Bool) :
    ((free &&& 0b11101111) ||| (0#3 ++ BitVec.ofBool pktdis ++ 0#4 : BitVec 8)).getLsbD 4 = pktdis := by
  revert free pktdis
  decide

theorem addressByte_toNat (a : BitVec 7) : (addressByte a).toNat = a.toNat := by
  revert a
  decide

/-- Settles O49, register by register. -/
theorem registerBytes : Obligations.RegisterBytes := by
  intro s
  refine ⟨fun n hn => ?_, fun c q hq => ?_, fun hq => ?_, ucon_bit4 _ _, addressByte_toNat _, ?_, ?_, ?_, rfl, rfl⟩
  · have htrnf : s.trnf = (s.ustatq != []) := by unfold State.trnf; cases s.ustatq <;> rfl
    rw [State.uir, uirByte_getLsbD _ _ _ _ n hn, htrnf, State.errf]
  · have hustat : s.ustat = ustatByte c.dir c.ep := by rw [State.ustat, hq]
    rw [hustat]
    exact ustatByte_fields c.dir c.ep
  · rw [State.ustat, hq]
  · rw [State.uep0]
    cases s.epStall.e0 <;> rfl
  · rw [State.uep1]
    cases s.epStall.e1 <;> rfl
  · rw [State.uep2]
    cases s.epStall.e2 <;> rfl

/-- Settles O50: each word decodes by evaluation. -/
theorem sampleWordsDecode : Obligations.SampleWordsDecode := ⟨rfl, rfl, rfl, rfl, rfl, rfl⟩

/-! ## PID4 rows: the dispatcher's classification (30_encoding R72, 42_dispatcher R118; log entry 7) -/

theorem isrReady_of_canEnter {s : State} (h : CanEnter s) : s.isrReady = true := by
  obtain ⟨hirq, hgie, hinisr, -⟩ := h
  simp [State.isrReady, hirq, hgie, hinisr]

/-- A row of the ISR context outside the ISR is an invocation that starts at it. -/
theorem isrRow_of_canEnter {s : State} (h : CanEnter s) (plan : State → Plan) :
    isrRow plan s = runPlan s (plan s.enterIsr) [.ret] := by
  obtain ⟨-, -, -, hk⟩ := id h
  rw [isrRow_of_inactive hk, isrInvoke_of_ready (isrReady_of_canEnter h)]

/-- An invocation whose rule does nothing leaves the state as it was (42_dispatcher R120). -/
theorem runPlan_nothing {s : State} (h : CanEnter s) :
    runPlan s (planNothing s.enterIsr) [.ret] = .next s := by
  obtain ⟨-, -, hinisr, hk⟩ := h
  exact congrArg Host.Outcome.next (leave_enter hk hinisr)

/-- A completion with no action only ends: at endpoint 0 packet processing is enabled again (42_dispatcher R119). -/
theorem runPlan_outEnd {s : State} (h : CanEnter s) (e : BitVec 4) :
    runPlan s (.ok (s.enterIsr, outEnd e)) [.ret]
      = .next { s with pktdis := if e = 0 then false else s.pktdis } := by
  obtain ⟨-, -, hinisr, hk⟩ := h
  unfold outEnd
  split
  · exact congrArg Host.Outcome.next (leave_enter (s := { s with pktdis := false }) hk hinisr)
  · exact congrArg Host.Outcome.next (leave_enter hk hinisr)

theorem planClassify_inn {s : State} (pid : BitVec 4) (h : ∀ c, s.ustatq.head? = some c → c.dir = .inn) :
    planClassify pid s = planNothing s := by
  unfold planClassify
  split
  · rfl
  · next c q hq =>
    rw [h c (by rw [hq]; rfl)]

theorem planClassify_out {s : State} (pid : BitVec 4) {e : BitVec 4} {q : List Completion}
    (h : s.ustatq = ⟨e, .out⟩ :: q) : planClassify pid s = outDonePlan (decodeOutDone e pid) s := by
  rw [planClassify, h]

/-- With an OUT-direction completion at the head of USTATQ a PID4 row is the OUTDONE8 row of its endpoint and PID. -/
theorem exec_pid4_out {i : Instr} (hf : i.format = .pid4) {s : State} (h : CanEnter s) {e : BitVec 4}
    {q : List Completion} (hq : s.ustatq = ⟨e, .out⟩ :: q) : exec i s = exec (decodeOutDone e (pidCode i)) s := by
  rw [exec_pid4 hf, exec_outdone8 (decodeOutDone_format _ _), isrRow_of_canEnter h, isrRow_of_canEnter h,
    planClassify_out (s := s.enterIsr) _ hq]

/-- The OUTDONE8 rows with no action (42_dispatcher R118). -/
theorem outDonePlan_nothing {e pid : BitVec 4} (hs : pid ≠ Pid.setup) (ho : pid ≠ Pid.out) (s : State) :
    outDonePlan (decodeOutDone e pid) s = .ok (s, outEnd e) := by
  unfold decodeOutDone
  rw [if_neg hs, if_neg ho]
  split <;> rfl

theorem exec_outDone_nothing {e pid : BitVec 4} (hs : pid ≠ Pid.setup) (ho : pid ≠ Pid.out) {s : State}
    (h : CanEnter s) :
    exec (decodeOutDone e pid) s = .next { s with pktdis := if e = 0 then false else s.pktdis } := by
  rw [exec_outdone8 (decodeOutDone_format _ _), isrRow_of_canEnter h, outDonePlan_nothing hs ho, runPlan_outEnd h]

/-- Settles O17: the row of the head's endpoint and of the PID, or nothing. -/
theorem pidRowsClassify : Obligations.PidRowsClassify := by
  intro s hs
  have all : ∀ i ∈ [Instr.pidOut, .pidIn, .pidSof, .pidSetup, .pidData0, .pidData1, .pidAck, .pidNak, .pidStall],
      i.format = .pid4 := by decide
  have others : ∀ i ∈ [Instr.pidIn, .pidSof, .pidData0, .pidData1, .pidNak, .pidStall],
      i.format = .pid4 ∧ pidCode i ≠ Pid.setup ∧ pidCode i ≠ Pid.out := by decide
  refine ⟨fun i hi hin => ?_, fun e q hq => ⟨?_, ?_, ?_, fun i hi => ?_⟩⟩
  · rw [exec_pid4 (all i hi), isrRow_of_canEnter hs, planClassify_inn (s := s.enterIsr) _ hin, runPlan_nothing hs]
  · rw [exec_pid4_out rfl hs hq]
    rfl
  · rw [exec_pid4_out rfl hs hq]
    rfl
  · rw [exec_pid4_out rfl hs hq, exec_outDone_nothing (by decide) (by decide) hs]
  · obtain ⟨hf, hsetup, hout⟩ := others i hi
    rw [exec_pid4_out hf hs hq, exec_outDone_nothing hsetup hout hs]

end Sys2Proof.Machine

namespace Sys2Proof.Machine

open Sys2Proof.Spec0

/-! ## Arming operations as rows (40_bdt_arming R89 to R93)

One equation per answer of an arming operation, what it leaves unread and unwritten, then one equation per answer for each
agent that runs it. -/

/-- The checks of an arming operation that do not look at the state, but for F3 (60_exceptions R160). -/
def ArmOp.ArgsOk : ArmOp → Prop
  | .armIn _ data len _ => armInArgsOk data len
  | .armOut .. | .stallIn .. => True

/-- The state a completed arming operation on this descriptor leaves. -/
def ArmOp.after (sl : Slot) : ArmOp → State → State
  | .armOut _ t, s => s.setBd sl (armedOut t (s.bd sl))
  | .armIn _ data len t, s => armInDone sl data len t s
  | .stallIn _, s => s.setBd sl (armedStall (s.bd sl))

section Runs

variable {a : ArmOp} {sl : Slot} {s : State} (ha : a.ArgsOk)
include ha

theorem ArmOp.run_of_cpu (hs : a.slot = some sl) (ho : (s.bd sl).own = .cpu) : a.run s = .done (a.after sl s) := by
  cases a with
  | armOut ep t => exact armOutRun_of_cpu t hs ho
  | armIn ep data len t => exact armInRun_of_cpu t ha hs ho
  | stallIn ep => exact stallInRun_of_cpu hs ho

theorem ArmOp.run_of_sie (hs : a.slot = some sl) (ho : (s.bd sl).own = .sie) : a.run s = .hold := by
  cases a with
  | armOut ep t => exact armOutRun_of_sie t hs ho
  | armIn ep data len t => exact armInRun_of_sie t ha hs ho
  | stallIn ep => exact stallInRun_of_sie hs ho

theorem ArmOp.run_of_none (hs : a.slot = none) (s : State) : a.run s = .raised .noDescriptor := by
  cases a with
  | armOut ep t => exact armOutRun_of_none t s hs
  | armIn ep data len t => exact armInRun_of_none t s ha hs
  | stallIn ep => exact stallInRun_of_none s hs

end Runs

/-- A direction the endpoint table does not enable has no descriptor (10_state R20, R27). -/
theorem slotOf_eq_none {ep : BitVec 4} {dir : Dir} (h : dirEnabled ep dir = false) : slotOf ep dir = none := by
  rwa [← slotOf_isSome, Option.isSome_eq_false_iff, Option.isNone_iff_eq_none] at h

theorem State.bd_kfg (s : State) (k : KFg) (sl : Slot) : ({ s with kfg := k } : State).bd sl = s.bd sl :=
  State.bd_congr rfl sl

/-- An arming operation neither reads nor writes KFG. -/
theorem ArmOp.after_withKfg (a : ArmOp) (sl : Slot) (s : State) (k : KFg) :
    a.after sl { s with kfg := k } = { a.after sl s with kfg := k } := by
  cases a with
  | armOut ep t => cases sl <;> rfl
  | armIn ep data len t => cases data <;> cases sl <;> rfl
  | stallIn ep => cases sl <;> rfl

@[simp] theorem ArmOp.after_kfg (a : ArmOp) (sl : Slot) (s : State) : (a.after sl s).kfg = s.kfg :=
  (congrArg State.kfg (a.after_withKfg sl s s.kfg) :)

/-- What serves a request writes CTRL, INISR and KISR, which an arming operation neither reads nor writes. -/
theorem ArmOp.after_holding (a : ArmOp) (sl : Slot) (s : State) (l : List IsrOp) :
    a.after sl (holding s l) = holding (a.after sl s) l := by
  cases a with
  | armOut ep t => cases sl <;> rfl
  | armIn ep data len t => cases data <;> cases sl <;> rfl
  | stallIn ep => cases sl <;> rfl

theorem bd_holding (s : State) (l : List IsrOp) (sl : Slot) : (holding s l).bd sl = s.bd sl := State.bd_congr rfl sl

/-- An arming operation writes its own descriptor alone. -/
theorem ArmOp.after_bd (a : ArmOp) {sl sl' : Slot} (h : sl' ≠ sl) (s : State) : (a.after sl s).bd sl' = s.bd sl' := by
  cases a with
  | armOut ep t => exact State.bd_setBd_of_ne s _ h
  | armIn ep data len t =>
    cases data with
    | none => exact State.bd_setBd_of_ne s _ h
    | some d => rw [ArmOp.after, armInDone, State.bd_setBd_of_ne _ _ h, State.bd_setFree, State.bd_setRam]
  | stallIn ep => exact State.bd_setBd_of_ne s _ h

/-! ### In FG -/

section Calls

variable {k : KFg} {s t : State} {c : Fault} (h : FgFree s)
include h

/-- A call that FG may make takes its first step (60_exceptions R162). -/
theorem fgCall_of_moved (hstep : fgStep { s with kfg := k } = .moved t) : fgCall k s = .next t := by
  obtain ⟨hinisr, hready, hkfg⟩ := h
  rw [fgCall, if_neg (by simp [hinisr]), if_neg (by simp [hready]), if_pos hkfg, hstep]

theorem fgCall_of_held (hstep : fgStep { s with kfg := k } = .held) : fgCall k s = .next { s with kfg := k } := by
  obtain ⟨hinisr, hready, hkfg⟩ := h
  rw [fgCall, if_neg (by simp [hinisr]), if_neg (by simp [hready]), if_pos hkfg, hstep]

theorem fgCall_of_raised (hstep : fgStep { s with kfg := k } = .raised c) : fgCall k s = .next (s.raise c) := by
  obtain ⟨hinisr, hready, hkfg⟩ := h
  rw [fgCall, if_neg (by simp [hinisr]), if_neg (by simp [hready]), if_pos hkfg, hstep]

/-- Outside the ISR an arming operation is a call of FG (40_bdt_arming R93). -/
theorem execArm_of_fgFree (a : ArmOp) : execArm a s = fgCall (.arm a) s := by
  obtain ⟨hinisr, -, -⟩ := h
  simp [execArm, hinisr]

end Calls

section Fg

variable {a : ArmOp} {sl : Slot} {s : State} (h : FgFree s) (ha : a.ArgsOk) (hs : a.slot = some sl)
include h ha hs

theorem execArm_fg_of_cpu (ho : (s.bd sl).own = .cpu) : execArm a s = .next (a.after sl s) := by
  obtain ⟨-, -, hkfg⟩ := id h
  have hrun := ArmOp.run_of_cpu ha hs (s := { s with kfg := .arm a }) (by rwa [State.bd_kfg])
  have hstep : fgStep { s with kfg := .arm a } = .moved { a.after sl { s with kfg := .arm a } with kfg := .idle } := by
    simp only [fgStep, fgArm, hrun]
  rw [execArm_of_fgFree h, fgCall_of_moved h hstep, ArmOp.after_withKfg, ← hkfg, ← a.after_kfg sl s]

theorem execArm_fg_of_sie (ho : (s.bd sl).own = .sie) : execArm a s = .next { s with kfg := .arm a } := by
  have hrun := ArmOp.run_of_sie ha hs (s := { s with kfg := .arm a }) (by rwa [State.bd_kfg])
  rw [execArm_of_fgFree h, fgCall_of_held h (by simp only [fgStep, fgArm, hrun])]

end Fg

/-! ### In the ISR -/

section Isr

variable {a : ArmOp} {s : State} {k : List IsrOp} (hi : s.inisr = true) (hk : s.kisr = .active k)
include hi hk

/-- Inside an invocation the rest of it follows the arming operation (log entry 6). -/
theorem execArm_of_active : execArm a s = .next (drive s (.arm a :: k) s) := by
  rw [execArm, if_pos hi, isrRow_of_active hk]
  rfl

theorem execArm_isr_of_sie {sl : Slot} (ha : a.ArgsOk) (hs : a.slot = some sl) (ho : (s.bd sl).own = .sie) :
    execArm a s = .next { s with kisr := .active (.arm a :: k) } := by
  rw [execArm_of_active hi hk, drive_arm_hold s k (ArmOp.run_of_sie ha hs ho), State.atHold, ← hi]

end Isr

theorem execArm_isr_of_cpu {a : ArmOp} {sl : Slot} {s : State} (hi : s.inisr = true) (hk : s.kisr = .active [.ret])
    (ha : a.ArgsOk) (hs : a.slot = some sl) (ho : (s.bd sl).own = .cpu) :
    execArm a s = .next (a.after sl s).leaveIsr := by
  rw [execArm_of_active hi hk, drive_arm_done s [.ret] (ArmOp.run_of_cpu ha hs ho), drive_ret]

/-! ### Faults -/

/-- A fault of an arming operation leaves the state as it was, with FAULT, in FG and in the ISR (60_exceptions R158). -/
theorem execArm_of_raised {a : ArmOp} {s : State} {c : Fault} (hf : s.fault = none)
    (h : FgFree s ∨ (s.inisr = true ∧ ∃ k, s.kisr = .active k)) (hr : ∀ u, a.run u = .raised c) :
    execArm a s = .next { s with fault := some c } := by
  have hraise : s.raise c = { s with fault := some c } := by rw [State.raise, hf]
  rw [← hraise]
  rcases h with h | ⟨hi, k, hk⟩
  · rw [execArm_of_fgFree h, fgCall_of_raised (c := c) h (by simp only [fgStep, fgArm, hr])]
  · rw [execArm_of_active hi hk, drive_arm_raised s k (hr s)]

/-! ### The operations without data -/

/-- What an arming operation whose arguments pass does in FG and in the ISR, by the owner of its descriptor, and F3
(40_bdt_arming R89, R91, R93). -/
theorem execArm_arms_or_holds {a : ArmOp} (ha : a.ArgsOk) (s : State) :
    (∀ sl, a.slot = some sl → FgFree s →
      ((s.bd sl).own = .cpu → execArm a s = .next (a.after sl s))
      ∧ ((s.bd sl).own = .sie → execArm a s = .next { s with kfg := .arm a }))
    ∧ (∀ sl, a.slot = some sl → s.inisr = true → s.kisr = .active [.ret] →
      ((s.bd sl).own = .cpu → execArm a s = .next (a.after sl s).leaveIsr)
      ∧ ((s.bd sl).own = .sie → execArm a s = .next { s with kisr := .active [.arm a, .ret] }))
    ∧ (s.fault = none → FgFree s ∨ (s.inisr = true ∧ ∃ k, s.kisr = .active k) → a.slot = none →
      execArm a s = .next { s with fault := some .noDescriptor }) :=
  ⟨fun _ hs h => ⟨execArm_fg_of_cpu h ha hs, execArm_fg_of_sie h ha hs⟩,
    fun _ hs hi hk => ⟨execArm_isr_of_cpu hi hk ha hs, execArm_isr_of_sie hi hk ha hs⟩,
    fun hf h hs => execArm_of_raised hf h (ArmOp.run_of_none ha hs)⟩

/-- Settles O23: the arming rule for `arm_out`, whose arguments are never refused. -/
theorem armOutArmsOrHolds : Obligations.ArmOutArmsOrHolds := by
  intro ep t s
  obtain ⟨hfg, hisr, hraised⟩ := execArm_arms_or_holds (a := .armOut ep t) trivial s
  exact ⟨hfg, hisr, fun hf h hdir => hraised hf h (slotOf_eq_none hdir)⟩

/-- Settles O25: the arming rule for `stall_in`, whose arguments are never refused. -/
theorem stallInStallsOrHolds : Obligations.StallInStallsOrHolds := by
  intro ep s
  obtain ⟨hfg, hisr, hraised⟩ := execArm_arms_or_holds (a := .stallIn ep) trivial s
  exact ⟨hfg, hisr, fun hf h hdir => hraised hf h (slotOf_eq_none hdir)⟩

/-! ### The bytes `arm_in` copies -/

/-- With data of at least `len` bytes the first `len` are copied and no free value is used (40_bdt_arming R90). -/
theorem armInDone_of_le {d : List Byte} {len : Nat} (h : len ≤ d.length) (sl : Slot) (t : Bool) (s : State) :
    armInDone sl (some d) len t s
      = (s.setRam (memWrite s.ram (s.bd sl).adr (d.take len))).setBd sl (inArmed (s.bd sl) len t) := by
  have hopen : len - d.length = 0 := Nat.sub_eq_zero_of_le h
  have hbytes : armBytes d len s.free = d.take len := by simp [armBytes, hopen]
  rw [armInDone, hopen, hbytes]
  rfl

/-- With shorter data the data is copied first, and open bytes make up `len` (log entry 11). -/
theorem armInDone_of_lt {d : List Byte} {len : Nat} (h : d.length < len) (sl : Slot) (t : Bool) (s : State) :
    ∃ (w : List Byte) (n : Nat), w.length = len ∧ w.take d.length = d
      ∧ armInDone sl (some d) len t s
        = { (s.setRam (memWrite s.ram (s.bd sl).adr w)).setBd sl (inArmed (s.bd sl) len t) with free := n } := by
  have htake : (armBytes d len s.free).take d.length = d := by
    rw [armBytes, List.take_of_length_le (Nat.le_of_lt h), List.take_left]
  exact ⟨armBytes d len s.free, s.free + (len - d.length), armBytes_length .., htake, by cases sl <;> rfl⟩

/-- The checks F1 and F2 of `arm_in` pass (60_exceptions R160). -/
theorem armInArgsOk_of_le {data : Option (List Byte)} {len : BitVec 16} (hlen : len.toNat ≤ 64)
    (hdata : data = none → len = 0) : armInArgsOk data len.toNat := by
  refine ⟨hlen, fun ⟨hnone, hpos⟩ => ?_⟩
  simp [hdata hnone] at hpos

/-- Settles O24: the two agents by the owner of the descriptor and the bytes there are, and F1 to F3. -/
theorem armInCopiesArmsOrHolds : Obligations.ArmInCopiesArmsOrHolds := by
  intro ep data len t s
  refine ⟨fun sl hs hlen hdata h => ?_, fun sl hs hlen hdata hi hk => ?_, fun hf h => ⟨fun hlen => ?_, ?_, ?_⟩⟩
  · have ha : (ArmOp.armIn ep data len.toNat t).ArgsOk := armInArgsOk_of_le hlen hdata
    have done {u : State} (ho : (s.bd sl).own = .cpu) (hu : armInDone sl data len.toNat t s = u) :
        exec (.armIn ep data len t) s = .next u := hu ▸ execArm_fg_of_cpu h ha hs ho
    refine ⟨fun ho hd => ?_, fun d ho hd hl => ?_, fun d ho hd hl => ?_, execArm_fg_of_sie h ha hs⟩
    · obtain rfl := hdata hd
      subst hd
      exact done ho rfl
    · subst hd
      exact done ho (armInDone_of_le hl sl t s)
    · subst hd
      obtain ⟨w, n, hw, hwd, heq⟩ := armInDone_of_lt hl sl t s
      exact ⟨w, n, hw, hwd, done ho heq⟩
  · have ha : (ArmOp.armIn ep data len.toNat t).ArgsOk := armInArgsOk_of_le hlen hdata
    have done {u : State} (ho : (s.bd sl).own = .cpu) (hu : armInDone sl data len.toNat t s = u) :
        exec (.armIn ep data len t) s = .next u.leaveIsr := hu ▸ execArm_isr_of_cpu hi hk ha hs ho
    refine ⟨fun d ho hd hl => ?_, fun ho hd => ?_, fun d ho hd hl => ?_, execArm_isr_of_sie hi hk ha hs⟩
    · subst hd
      exact done ho (armInDone_of_le hl sl t s)
    · obtain rfl := hdata hd
      subst hd
      exact done ho rfl
    · subst hd
      obtain ⟨w, n, hw, hwd, heq⟩ := armInDone_of_lt hl sl t s
      exact ⟨w, n, hw, hwd, done ho heq⟩
  · exact execArm_of_raised (a := .armIn ep data len.toNat t) hf h fun u => armInRun_of_overlength data t u hlen
  · rintro hlen hpos rfl
    exact execArm_of_raised (a := .armIn ep none len.toNat t) hf h fun u => armInRun_of_nodata t u hlen hpos
  · intro hlen hdata hdir
    exact execArm_of_raised (a := .armIn ep data len.toNat t) hf h
      (ArmOp.run_of_none (armInArgsOk_of_le hlen hdata) (slotOf_eq_none hdir))

end Sys2Proof.Machine

namespace Sys2Proof.Machine

open Sys2Proof.Spec0

/-! ## Requests that hold (41_control_transfer R97 to R105, 43_class_requests R123, R124) -/

/-- The row answers on endpoint 0 IN with `a`, leaving PENDADDR as `p`, and then re-arms endpoint 0 OUT with toggle 0. -/
structure Answers (i : Instr) (s : State) (p : Option (BitVec 7)) (a : ArmOp) : Prop where
  format : i.format = .setup64
  plan : setupPlan i s.enterIsr
    = .ok (holding { s with pendAddr := p } [.ret], [.arm a, .arm (.armOut 0 false)])
  args : a.ArgsOk
  slot : a.slot = some .ep0In

/-- The first `n` bytes of a descriptor, sent as the response (41_control_transfer R97 to R99). -/
def responseArm (full : List Byte) (n : Nat) : ArmOp := .armIn 0 (some (full.take n)) n true

theorem responseArm_args {n : Nat} (full : List Byte) (h : n ≤ Config.maxP) : (responseArm full n).ArgsOk :=
  ⟨h, fun ⟨hnone, _⟩ => nomatch hnone⟩

theorem zlp_args : (ArmOp.armIn 0 none 0 true).ArgsOk := ⟨Nat.zero_le _, fun ⟨_, hpos⟩ => Nat.lt_irrefl 0 hpos⟩

/-! ### The rows that answer -/

section Rows

variable (h : ReqHead) (b : Byte) (wValue wIndex wLength : BitVec 16) (s : State)

theorem answers_device :
    Answers (.getDescriptorDevice h b wIndex wLength) s s.pendAddr
      (responseArm s.cfg.catalog.dev (min wLength.toNat 18)) :=
  ⟨rfl, rfl, responseArm_args _ (deviceLen_le wLength), rfl⟩

theorem answers_configuration {c : ConfigDesc} (hc : s.cfg.catalog.confs[b.toNat]? = some c) :
    Answers (.getDescriptorConfiguration h b wIndex wLength) s s.pendAddr
      (responseArm (confBlob c) (min wLength.toNat (min 64 (confBlob c).length))) := by
  have hc' : s.enterIsr.cfg.catalog.confs[b.toNat]? = some c := hc
  rw [← respLen_eq]
  exact ⟨rfl, by simp only [setupPlan, planConfiguration, hc']; rfl, responseArm_args _ (respLen_le ..), rfl⟩

theorem answers_string {d : List Byte} (hd : s.cfg.catalog.strs[b.toNat]? = some d) :
    Answers (.getDescriptorString h b wIndex wLength) s s.pendAddr
      (responseArm (stringDesc d) (min wLength.toNat (min 64 (2 + d.length)))) := by
  have hd' : s.enterIsr.cfg.catalog.strs[b.toNat]? = some d := hd
  rw [← stringDesc_length, ← respLen_eq]
  exact ⟨rfl, by simp only [setupPlan, planString, hd']; rfl, responseArm_args _ (respLen_le ..), rfl⟩

theorem answers_deviceQualifier :
    Answers (.getDescriptorDeviceQualifier h b wIndex wLength) s s.pendAddr (.stallIn 0) :=
  ⟨rfl, rfl, trivial, rfl⟩

theorem answers_setAddress :
    Answers (.setAddress h wValue wIndex wLength) s (some (BitVec.ofNat 7 (wValue.toNat % 128)))
      (.armIn 0 none 0 true) :=
  ⟨rfl, by rw [← requestedAddress_eq]; rfl, zlp_args, rfl⟩

/-- The requests that are acknowledged and change nothing else (41_control_transfer R103, R105, 43_class_requests
R124). -/
theorem answers_acknowledged {i : Instr}
    (hi : i ∈ [Instr.setConfiguration h wValue wIndex wLength, .classNodata h b wValue wIndex,
      .vendorNodata h b wValue wIndex]) : Answers i s s.pendAddr (.armIn 0 none 0 true) := by
  simp only [List.mem_cons, List.not_mem_nil, or_false] at hi
  rcases hi with rfl | rfl | rfl
  · exact ⟨rfl, rfl, zlp_args, rfl⟩
  · exact ⟨rfl, planClassNodata_eq b s.enterIsr, zlp_args, rfl⟩
  · exact ⟨rfl, planClassNodata_eq b s.enterIsr, zlp_args, rfl⟩

end Rows

/-! ### Where they hold -/

theorem exec_of_setupPlan {i : Instr} {s u : State} {ops : List IsrOp} (hs : CanEnter s) (hf : i.format = .setup64)
    (hp : setupPlan i s.enterIsr = .ok (u, ops)) : exec i s = .next (drive s (ops ++ [.ret]) u) := by
  rw [exec_setup64 hf, isrRow_of_canEnter hs, hp]
  rfl

section Answers

variable {i : Instr} {s : State} {p : Option (BitVec 7)} {a : ArmOp} (h : Answers i s p a) (hs : CanEnter s)
include h hs

/-- With endpoint 0 IN armed the answer is not made, and it is left to do (40_bdt_arming R90, R93). -/
theorem Answers.holds_at_answer (hin : s.bdt.ep0In.own = .sie) :
    exec i s = .next (holding { s with pendAddr := p } [.arm a, .arm (.armOut 0 false), .ret]) := by
  rw [exec_of_setupPlan hs h.format h.plan]
  exact congrArg Host.Outcome.next (drive_arm_hold s _ (ArmOp.run_of_sie h.args h.slot hin))

/-- With endpoint 0 OUT armed the answer is made, and the re-arm is left to do (40_bdt_arming R89, R93). -/
theorem Answers.holds_at_rearm (hin : s.bdt.ep0In.own = .cpu) (hout : s.bdt.ep0Out.own = .sie) :
    exec i s = .next (holding (a.after .ep0In { s with pendAddr := p }) [.arm (.armOut 0 false), .ret]) := by
  have hrun := ArmOp.run_of_cpu h.args h.slot (s := holding { s with pendAddr := p } [.ret]) hin
  rw [ArmOp.after_holding] at hrun
  have hold : (ArmOp.armOut 0 false).run (holding (a.after .ep0In { s with pendAddr := p }) [.ret]) = .hold := by
    refine ArmOp.run_of_sie (sl := .ep0Out) trivial rfl ?_
    rw [bd_holding, a.after_bd (by decide)]
    exact hout
  rw [exec_of_setupPlan hs h.format h.plan, List.cons_append, drive_arm_done s _ hrun, List.cons_append,
    drive_arm_hold _ _ hold]
  rfl

end Answers

theorem responseArm_after {full : List Byte} {n : Nat} (h : n ≤ full.length) (s : State) :
    (responseArm full n).after .ep0In s
      = { s with
          ram := memWrite s.ram s.bdt.ep0In.adr (full.take n),
          bdt := { s.bdt with ep0In := inArmed s.bdt.ep0In n true } } := by
  have hn : n ≤ (full.take n).length := by rw [List.length_take_of_le h]
  rw [responseArm, ArmOp.after, armInDone_of_le hn, List.take_take, Nat.min_self]
  rfl

/-- A response whose bytes the descriptor has is copied before the re-arm holds (41_control_transfer R97 to R99). -/
theorem Answers.response_holds_at_rearm {i : Instr} {s : State} {full : List Byte} {n : Nat}
    (h : Answers i s s.pendAddr (responseArm full n)) (hs : CanEnter s) (hn : n ≤ full.length)
    (hin : s.bdt.ep0In.own = .cpu) (hout : s.bdt.ep0Out.own = .sie) :
    exec i s
      = .next (holding
          { s with
            ram := memWrite s.ram s.bdt.ep0In.adr (full.take n),
            bdt := { s.bdt with ep0In := inArmed s.bdt.ep0In n true } }
          [.arm (.armOut 0 false), .ret]) := by
  rw [h.holds_at_rearm hs hin hout, responseArm_after hn]

/-- A class or vendor request with a data stage holds at its OUT arm (43_class_requests R123). -/
theorem exec_staged_holds {i : Instr} {s : State} {b : Byte} (hs : CanEnter s) (hf : i.format = .setup64)
    (hp : setupPlan i s.enterIsr = planClassData b s.enterIsr) (hout : s.bdt.ep0Out.own = .sie) :
    exec i s = .next { holding s [.arm (.armOut 0 true), .ret] with ctrl := .awaitingPayload b } := by
  rw [exec_of_setupPlan hs hf hp]
  refine congrArg Host.Outcome.next (drive_arm_hold s _ ?_)
  exact ArmOp.run_of_sie (sl := .ep0Out) trivial rfl hout

/-- Settles O10: each served request by the first of its arms that finds its descriptor with the SIE. -/
theorem requestsHoldOnAnArmedDescriptor : Obligations.RequestsHoldOnAnArmedDescriptor := by
  intro h b wValue wIndex wLength s hs
  refine ⟨fun hin => ⟨?_, fun c hc => ?_, fun d hd => ?_, ?_, ?_, fun i hi => ?_⟩,
    fun hout => ⟨fun i hi => ?_, fun hin => ⟨fun hdev => ?_, fun c hc => ?_, fun d hd => ?_, ?_, ?_, fun i hi => ?_⟩⟩⟩
  · exact (answers_device h b wIndex wLength s).holds_at_answer hs hin
  · exact (answers_configuration h b wIndex wLength s hc).holds_at_answer hs hin
  · exact (answers_string h b wIndex wLength s hd).holds_at_answer hs hin
  · exact (answers_deviceQualifier h b wIndex wLength s).holds_at_answer hs hin
  · exact (answers_setAddress h wValue wIndex wLength s).holds_at_answer hs hin
  · exact (answers_acknowledged h b wValue wIndex wLength s hi).holds_at_answer hs hin
  · simp only [List.mem_cons, List.not_mem_nil, or_false] at hi
    rcases hi with rfl | rfl <;> exact exec_staged_holds hs rfl rfl hout
  · have hlen : min wLength.toNat 18 ≤ s.cfg.catalog.dev.length := hdev ▸ Nat.min_le_right ..
    exact (answers_device h b wIndex wLength s).response_holds_at_rearm hs hlen hin hout
  · have hlen : min wLength.toNat (min 64 (confBlob c).length) ≤ (confBlob c).length := by omega
    exact (answers_configuration h b wIndex wLength s hc).response_holds_at_rearm hs hlen hin hout
  · have hlen : min wLength.toNat (min 64 (2 + d.length)) ≤ (stringDesc d).length := by rw [stringDesc_length]; omega
    exact (answers_string h b wIndex wLength s hd).response_holds_at_rearm hs hlen hin hout
  · exact (answers_deviceQualifier h b wIndex wLength s).holds_at_rearm hs hin hout
  · exact (answers_setAddress h wValue wIndex wLength s).holds_at_rearm hs hin hout
  · exact (answers_acknowledged h b wValue wIndex wLength s hi).holds_at_rearm hs hin hout

end Sys2Proof.Machine

namespace Sys2Proof.Machine

open Sys2Proof.Spec0

/-! ## Control transfers with free descriptors, and SETUP and OUT completions of endpoint 0 (41_control_transfer R94 to
R108, 43_class_requests R126, 42_dispatcher R118, R119) -/

theorem ArmOp.slot_of_ep0In {a : ArmOp} (h : ArmOp.ep0In a = true) : a.slot = some .ep0In := by
  cases a with
  | armOut => cases h
  | armIn ep | stallIn ep =>
    obtain rfl : ep = 0 := by simpa [ArmOp.ep0In] using h
    rfl

theorem ArmOp.argsOk_of_legal {a : ArmOp} (h : a.legal = true) : a.ArgsOk := by
  cases a with
  | armOut | stallIn => trivial
  | armIn ep data len t =>
    obtain ⟨⟨hlen, hdata⟩, -⟩ : (len ≤ Config.maxP ∧ (data.isSome = true ∨ len = 0)) ∧ _ := by
      simpa [ArmOp.legal] using h
    refine ⟨hlen, ?_⟩
    rintro ⟨rfl, hpos⟩
    have hzero : len = 0 := by simpa using hdata
    omega

/-! ### What follows the operations of endpoint 0 -/

section Drive

variable {u : State} (hout : u.bdt.ep0Out.own = .cpu)
include hout

/-- With endpoint 0 OUT free its re-arm runs through (40_bdt_arming R89). -/
theorem drive_rearm (b : State) (t : Bool) (k : List IsrOp) :
    drive b (.arm (.armOut 0 t) :: k) u = drive (u.atHold (.armOut 0 t) k) k ((ArmOp.armOut 0 t).after .ep0Out u) :=
  drive_arm_done b k (ArmOp.run_of_cpu (sl := .ep0Out) trivial rfl hout)

/-- With both descriptors of endpoint 0 free an answer and the re-arm run through (40_bdt_arming R89 to R91). -/
theorem drive_answer {a : ArmOp} (ha : a.ArgsOk) (hs : a.slot = some .ep0In) (hin : u.bdt.ep0In.own = .cpu) (b : State)
    (k : List IsrOp) :
    drive b (.arm a :: .arm (.armOut 0 false) :: k) u
      = drive ((a.after .ep0In u).atHold (.armOut 0 false) k) k
          ((ArmOp.armOut 0 false).after .ep0Out (a.after .ep0In u)) := by
  have hout' : ((a.after .ep0In u).bd .ep0Out).own = .cpu := by
    rw [a.after_bd (by decide)]
    exact hout
  rw [drive_arm_done b _ (ArmOp.run_of_cpu ha hs hin), drive_rearm hout']

end Drive

/-- The operations of a handler of endpoint 0 run through, or stop at one of them, where the SIE owns a descriptor;
neither depends on what follows them. -/
theorem Ep0Ops.drive_cases {ops : List IsrOp} (h : Ep0Ops ops) (u : State) :
    (∃ v, ∀ b k, ∃ b', drive b (ops ++ k) u = drive b' k v)
      ∨ ((u.bdt.ep0In.own = .sie ∨ u.bdt.ep0Out.own = .sie)
          ∧ ∃ (v : State) (a : ArmOp) (rest : List IsrOp), ∀ b k, drive b (ops ++ k) u = v.atHold a (rest ++ k)) := by
  cases h with
  | none => exact .inl ⟨u, fun b k => ⟨b, rfl⟩⟩
  | rearm t =>
    cases hout : u.bdt.ep0Out.own with
    | cpu => exact .inl ⟨_, fun b k => ⟨_, drive_rearm hout b t k⟩⟩
    | sie =>
      exact .inr ⟨.inr rfl, u, .armOut 0 t, [],
        fun b k => drive_arm_hold b k (ArmOp.run_of_sie (sl := .ep0Out) trivial rfl hout)⟩
  | @answer a hep hlegal =>
    have ha := ArmOp.argsOk_of_legal hlegal
    have hs := ArmOp.slot_of_ep0In hep
    cases hin : u.bdt.ep0In.own with
    | sie =>
      exact .inr ⟨.inl rfl, u, a, [.arm (.armOut 0 false)],
        fun b k => drive_arm_hold b _ (ArmOp.run_of_sie ha hs hin)⟩
    | cpu =>
      cases hout : u.bdt.ep0Out.own with
      | cpu => exact .inl ⟨_, fun b k => ⟨_, drive_answer hout ha hs hin b k⟩⟩
      | sie =>
        have hout' : ((a.after .ep0In u).bd .ep0Out).own = .sie := by
          rw [a.after_bd (by decide)]
          exact hout
        refine .inr ⟨.inr rfl, a.after .ep0In u, .armOut 0 false, [], fun b k => ?_⟩
        have hold := ArmOp.run_of_sie (a := .armOut 0 false) trivial rfl hout'
        exact (drive_arm_done b _ (ArmOp.run_of_cpu ha hs hin)).trans (drive_arm_hold _ k hold)

/-- The packet in a buffer is read as one SETUP record (41_control_transfer R94, 30_encoding R65). -/
theorem decode_setup64_memRead (m : Memory) (adr : BitVec 16) :
    decode .setup64 (memRead m adr 8) = .ok (decodeSetup (readSetup m adr)) := rfl

/-- A handler of endpoint 0 runs as an invocation in which the end of `out_complete(0)` stands between the handler's
operations and the return (42_dispatcher R119). -/
theorem exec_of_ep0Handler {i : Instr} {s u : State} {p : Plan} {ops : List IsrOp} (hs : CanEnter s)
    (hf : i.format = .outdone8) (hi : outDonePlan i s.enterIsr = outHandler 0 p) (hp : p = .ok (u, ops)) :
    exec i s = .next (drive s (ops ++ [.pktdisOff, .ret]) u) := by
  rw [exec_outdone8 hf, isrRow_of_canEnter hs, hi, hp]
  exact congrArg (fun l => Host.Outcome.next (drive s l u)) (List.append_assoc ops [.pktdisOff] [.ret])

/-- Settles O14: the row's operations end alike under either rest of the invocation. -/
theorem setupCompletionRunsItsRow : Obligations.SetupCompletionRunsItsRow := by
  intro s i hs hdec
  obtain rfl : decodeSetup (readSetup s.ram s.bdt.ep0Out.adr) = i :=
    Except.ok.inj ((decode_setup64_memRead ..).symm.trans hdec)
  obtain ⟨c, p, ops, hp, hops, -⟩ := setupPlan_cases (decodeSetup (readSetup s.ram s.bdt.ep0Out.adr)) s.enterIsr
  have hrow := exec_of_setupPlan hs (decodeSetup_format _) hp
  have hsetup := exec_of_ep0Handler (i := .ep0Setup) hs rfl rfl hp
  rcases hops.drive_cases { s.enterIsr with ctrl := c, pendAddr := p } with ⟨v, hv⟩ | ⟨hsie, v, a, rest, hv⟩
  · obtain ⟨b, hb⟩ := hv s [.ret]
    obtain ⟨b', hb'⟩ := hv s [.pktdisOff, .ret]
    rw [hb, drive_ret] at hrow
    rw [hb', drive_pktdisOff, drive_ret] at hsetup
    refine ⟨fun _ => ⟨_, hrow, hsetup⟩, fun t k ht hk => ?_⟩
    obtain rfl := Host.Outcome.next.inj (hrow.symm.trans ht)
    cases hk
  · rw [hv] at hrow hsetup
    refine ⟨fun ⟨hin, hout⟩ => ?_, fun t k ht hk => ?_⟩
    · rcases hsie with h | h
      · exact nomatch hin.symm.trans h
      · exact nomatch hout.symm.trans h
    · obtain rfl := Host.Outcome.next.inj (hrow.symm.trans ht)
      obtain rfl : .arm a :: rest = k := List.append_cancel_right (KIsr.active.inj hk)
      exact hsetup

/-! ### Requests that are served or dropped -/

/-- When an invocation that serves a request returns, CTRL alone remains of what `holding` writes. -/
theorem holding_leaveIsr {s : State} (hs : Calm s) (l : List IsrOp) :
    (holding s l).leaveIsr = { s with ctrl := .awaitingRequest } := by
  obtain ⟨hinisr, hkisr⟩ := hs
  exact leave_enter (s := { s with ctrl := .awaitingRequest }) hkisr hinisr

/-- An arming operation neither enters nor leaves the ISR. -/
theorem ArmOp.after_calm (a : ArmOp) (sl : Slot) {s : State} (hs : Calm s) : Calm (a.after sl s) := by
  cases a with
  | armOut ep t => cases sl <;> exact hs
  | armIn ep data len t => cases data <;> cases sl <;> exact hs
  | stallIn ep => cases sl <;> exact hs

/-- The answer `a` on endpoint 0 IN, then the re-arm of endpoint 0 OUT with toggle 0. -/
def answered (a : ArmOp) (s : State) : State := (ArmOp.armOut 0 false).after .ep0Out (a.after .ep0In s)

theorem answered_calm (a : ArmOp) {s : State} (hs : Calm s) : Calm (answered a s) :=
  ArmOp.after_calm _ _ (a.after_calm _ hs)

theorem answered_holding (a : ArmOp) (s : State) (l : List IsrOp) :
    answered a (holding s l) = holding (answered a s) l := by
  rw [answered, ArmOp.after_holding, ArmOp.after_holding, answered]

/-- With both descriptors of endpoint 0 free the row answers and re-arms, and CTRL is reset. -/
theorem Answers.exec_of_free {i : Instr} {s : State} {p : Option (BitVec 7)} {a : ArmOp} (h : Answers i s p a)
    (hs : CanEnter s) (hfree : Ep0Free s) :
    exec i s = .next { answered a { s with pendAddr := p } with ctrl := .awaitingRequest } := by
  obtain ⟨-, -, hcalm⟩ := id hs
  obtain ⟨hin, hout⟩ := hfree
  have hcalm' := answered_calm a (s := { s with pendAddr := p }) hcalm
  have hdrive := drive_answer (u := holding { s with pendAddr := p } [.ret]) hout h.args h.slot hin s [.ret]
  rw [drive_ret, ← answered, answered_holding, holding_leaveIsr hcalm'] at hdrive
  rw [exec_of_setupPlan hs h.format h.plan, ← hdrive]
  rfl

/-- A response whose bytes the descriptor has is sent (41_control_transfer R97 to R99). -/
theorem Answers.response_of_free {i : Instr} {s : State} {full : List Byte} {n : Nat}
    (h : Answers i s s.pendAddr (responseArm full n)) (hs : CanEnter s) (hfree : Ep0Free s) (hn : n ≤ full.length) :
    exec i s = .next (responded s (full.take n)) := by
  rw [h.exec_of_free hs hfree, answered, responseArm_after hn, responded, List.length_take_of_le hn]
  rfl

/-- A dropped row resets CTRL and does nothing else (41_control_transfer R94, R107). -/
theorem exec_of_drop {i : Instr} {s : State} (hs : CanEnter s) (hf : i.format = .setup64)
    (hp : setupPlan i s.enterIsr = planDrop s.enterIsr) : exec i s = .next { s with ctrl := .awaitingRequest } := by
  obtain ⟨-, -, hcalm⟩ := id hs
  rw [exec_of_setupPlan hs hf hp, List.nil_append, drive_ret]
  exact congrArg Host.Outcome.next (holding_leaveIsr hcalm [.ret])

theorem planConfiguration_of_length_le {index : Byte} {s : State} (h : s.cfg.catalog.confs.length ≤ index.toNat)
    (wLength : BitVec 16) : planConfiguration index wLength s = planDrop s := by
  rw [planConfiguration, List.getElem?_eq_none h]

theorem planString_of_length_le {index : Byte} {s : State} (h : s.cfg.catalog.strs.length ≤ index.toNat)
    (wLength : BitVec 16) : planString index wLength s = planDrop s := by
  rw [planString, List.getElem?_eq_none h]

/-- Settles O3: the row answers with bytes DEV has. -/
theorem deviceDescriptorIsSent : Obligations.DeviceDescriptorIsSent := by
  intro h index wIndex wLength s hs hfree hdev
  have hlen : min wLength.toNat 18 ≤ s.cfg.catalog.dev.length := hdev ▸ Nat.min_le_right ..
  exact (answers_device h index wIndex wLength s).response_of_free hs hfree hlen

/-- Settles O4: the row answers with bytes the blob has, or is dropped. -/
theorem configurationDescriptorIsSent : Obligations.ConfigurationDescriptorIsSent := by
  intro h index wIndex wLength s hs
  refine ⟨fun c hfree hc => ?_,
    fun hrange => exec_of_drop hs rfl (planConfiguration_of_length_le (s := s.enterIsr) hrange _)⟩
  have hlen : min wLength.toNat (min 64 (confBlob c).length) ≤ (confBlob c).length := by omega
  exact (answers_configuration h index wIndex wLength s hc).response_of_free hs hfree hlen

/-- Settles O5: the row answers with bytes the composed descriptor has, or is dropped. -/
theorem stringDescriptorIsComposed : Obligations.StringDescriptorIsComposed := by
  intro h index wIndex wLength s hs
  refine ⟨fun d hfree hd => ?_,
    fun hrange => exec_of_drop hs rfl (planString_of_length_le (s := s.enterIsr) hrange _)⟩
  have hlen : min wLength.toNat (min 64 (2 + d.length)) ≤ (stringDesc d).length := by rw [stringDesc_length]; omega
  exact (answers_string h index wIndex wLength s hd).response_of_free hs hfree hlen

/-- Settles O6: the row answers with `stall_in`. -/
theorem deviceQualifierStallsEp0In : Obligations.DeviceQualifierStallsEp0In := fun h index wIndex wLength s hs hfree =>
  (answers_deviceQualifier h index wIndex wLength s).exec_of_free hs hfree

/-- Settles O7: the three rows are dropped. -/
theorem droppedRequestsArmNothing : Obligations.DroppedRequestsArmNothing := fun _ _ _ _ _ _ _ hs =>
  ⟨exec_of_drop hs rfl rfl, exec_of_drop hs rfl rfl, exec_of_drop hs rfl rfl⟩

/-- Settles O8: both rows answer with a zero-length packet, and SET_ADDRESS latches PENDADDR. -/
theorem addressAndConfigurationAreAcknowledged : Obligations.AddressAndConfigurationAreAcknowledged := by
  intro h wValue wIndex wLength s hs hfree
  have hconf : Instr.setConfiguration h wValue wIndex wLength ∈ [Instr.setConfiguration h wValue wIndex wLength,
    .classNodata h 0 wValue wIndex, .vendorNodata h 0 wValue wIndex] := List.mem_cons_self
  exact ⟨(answers_setAddress h wValue wIndex wLength s).exec_of_free hs hfree,
    (answers_acknowledged h 0 wValue wIndex wLength s hconf).exec_of_free hs hfree⟩

/-! ### OUT packets on endpoint 0 -/

theorem decodeClassReq_format (b : Byte) (payload : Option (List Byte)) :
    (decodeClassReq b payload).format = .classreq8 := by
  unfold decodeClassReq
  split
  · rfl
  · split <;> rfl

/-- `process` does not look at the interrupt context. -/
theorem process_enterIsr (b : Byte) (payload : Option (List Byte)) (s : State) :
    process b payload s.enterIsr = (process b payload s).enterIsr := by
  unfold process decodeClassReq
  split
  · simp only [classReqEffect, processSetLineCoding]
    split <;> rfl
  · split <;> rfl

/-- Outside a data stage EP0_TOKEN_OUT re-arms endpoint 0 OUT with toggle 0 (41_control_transfer R108). -/
theorem exec_ep0TokenOut_status {s : State} (hs : CanEnter s) (hc : s.ctrl = .awaitingRequest)
    (hout : s.bdt.ep0Out.own = .cpu) :
    exec .ep0TokenOut s
      = .next { s with bdt := { s.bdt with ep0Out := outArmed s.bdt.ep0Out false }, pktdis := false } := by
  obtain ⟨-, -, hinisr, hkisr⟩ := id hs
  have hplan : planEp0Out s.enterIsr = .ok (s.enterIsr, [.arm (.armOut 0 false)]) := by
    simp only [planEp0Out, show s.enterIsr.ctrl = .awaitingRequest from hc]
  rw [exec_of_ep0Handler hs rfl rfl hplan]
  refine congrArg Host.Outcome.next ((drive_rearm (u := s.enterIsr) hout s false [.pktdisOff, .ret]).trans ?_)
  exact leave_enter
    (s := { s with bdt := { s.bdt with ep0Out := outArmed s.bdt.ep0Out false }, pktdis := false }) hkisr hinisr

/-- In a data stage EP0_TOKEN_OUT processes the received bytes and acknowledges (43_class_requests R126). -/
theorem exec_ep0TokenOut_payload {s : State} {req : Byte} (hs : CanEnter s) (hc : s.ctrl = .awaitingPayload req)
    (hfree : Ep0Free s) :
    exec .ep0TokenOut s
      = .next { acknowledged (process req (some (received .ep0Out s)) s) with pktdis := false } := by
  have hplan : planEp0Out s.enterIsr
      = .ok (holding (process req (some (received .ep0Out s)) s) [.ret], acknowledge) := by
    simp only [planEp0Out, show s.enterIsr.ctrl = .awaitingPayload req from hc, planClassPayload, process_enterIsr]
    rfl
  rw [exec_of_ep0Handler hs rfl rfl hplan, process_frame]
  obtain ⟨-, -, hcalm⟩ := hs
  obtain ⟨hin, hout⟩ := hfree
  generalize (process req (some (received .ep0Out s)) s).lineCoding = l
  have hdrive := drive_answer (u := holding { s with lineCoding := l } [.ret]) hout zlp_args rfl hin s
    [.pktdisOff, .ret]
  refine congrArg Host.Outcome.next (hdrive.trans ?_)
  exact holding_leaveIsr (s := { acknowledged { s with lineCoding := l } with pktdis := false }) hcalm [.ret]

/-- Settles O15: the status stage, and the data stage, whose CLASSREQ8 row is the one `process` selects. -/
theorem ep0OutPacketEndsAStage : Obligations.Ep0OutPacketEndsAStage := fun s hs =>
  ⟨exec_ep0TokenOut_status hs, fun req hc hfree =>
    ⟨process req (some (received .ep0Out s)) s, exec_classreq8 (decodeClassReq_format req _) s,
      exec_ep0TokenOut_payload hs hc hfree⟩⟩

end Sys2Proof.Machine

namespace Sys2Proof.Machine

open Sys2Proof.Spec0

/-! ## The dispatcher (42_dispatcher R111 to R121)

What an invocation does depends on INISR, KISR and the program only where it stops. So each operation of the ISR commutes
with a change of these three, its context; rows inside and outside an invocation, and steps and lines of the ISR, are then
compared by what they leave to do. -/

/-! ### The context of an invocation -/

/-- INISR, KISR and the program lines still to come. -/
structure Context where
  inisr : Bool
  kisr : KIsr
  feed : List Line

/-- Inside an invocation with this rest (42_dispatcher R111). -/
def Context.isr (k : List IsrOp) (l : List Line) : Context := ⟨true, .active k, l⟩

def State.context (s : State) : Context := ⟨s.inisr, s.kisr, s.feed⟩

def State.withContext (s : State) (c : Context) : State := { s with inisr := c.inisr, kisr := c.kisr, feed := c.feed }

theorem State.bd_withContext (s : State) (c : Context) (sl : Slot) : (s.withContext c).bd sl = s.bd sl :=
  State.bd_congr rfl sl

theorem ArmOp.after_withContext (a : ArmOp) (sl : Slot) (s : State) (c : Context) :
    a.after sl (s.withContext c) = (a.after sl s).withContext c := by
  cases a with
  | armOut ep t => cases sl <;> rfl
  | armIn ep data len t => cases data <;> cases sl <;> rfl
  | stallIn ep => cases sl <;> rfl

/-- An arming operation raises the same fault from every state, or it looks at the owner of its descriptor alone
(60_exceptions R160). -/
theorem ArmOp.raises_or_argsOk (a : ArmOp) :
    (∃ c, ∀ s, a.run s = .raised c) ∨ (a.ArgsOk ∧ ∃ sl, a.slot = some sl) := by
  have named (ha : a.ArgsOk) : (∃ c, ∀ s, a.run s = .raised c) ∨ (a.ArgsOk ∧ ∃ sl, a.slot = some sl) := by
    cases hs : a.slot with
    | none => exact .inl ⟨_, ArmOp.run_of_none ha hs⟩
    | some sl => exact .inr ⟨ha, sl, rfl⟩
  cases a with
  | armOut | stallIn => exact named trivial
  | armIn ep data len t =>
    by_cases hl : Config.maxP < len
    · exact .inl ⟨_, fun s => armInRun_of_overlength data t s hl⟩
    by_cases hd : data = none ∧ 0 < len
    · obtain ⟨rfl, hpos⟩ := hd
      exact .inl ⟨_, fun s => armInRun_of_nodata t s (Nat.not_lt.mp hl) hpos⟩
    · exact named ⟨Nat.not_lt.mp hl, hd⟩

theorem ArmOp.slot_of_legal {a : ArmOp} (h : a.legal = true) : ∃ sl, a.slot = some sl := by
  cases a with
  | armOut | stallIn => exact Option.isSome_iff_exists.mp h
  | armIn =>
    rw [ArmOp.legal, Bool.and_eq_true] at h
    exact Option.isSome_iff_exists.mp h.2

/-- A legal arming operation is done or holds, by the owner of its descriptor (60_exceptions R164). -/
theorem ArmOp.run_of_legal {a : ArmOp} (h : a.legal = true) (s : State) :
    (∃ sl, a.run s = .done (a.after sl s)) ∨ a.run s = .hold := by
  have ha := ArmOp.argsOk_of_legal h
  obtain ⟨sl, hs⟩ := ArmOp.slot_of_legal h
  cases ho : (s.bd sl).own with
  | cpu => exact .inl ⟨sl, ArmOp.run_of_cpu ha hs ho⟩
  | sie => exact .inr (ArmOp.run_of_sie ha hs ho)

theorem ArmOp.run_ne_raised {a : ArmOp} (h : a.legal = true) (s : State) (c : Fault) : a.run s ≠ .raised c := by
  rcases ArmOp.run_of_legal h s with ⟨sl, hr⟩ | hr <;> rw [hr] <;> exact nofun

/-- The result of an arming operation in another context. -/
def ArmRes.withContext (c : Context) : ArmRes → ArmRes
  | .done u => .done (u.withContext c)
  | .hold => .hold
  | .raised f => .raised f

theorem ArmOp.run_withContext (a : ArmOp) (s : State) (c : Context) :
    a.run (s.withContext c) = (a.run s).withContext c := by
  rcases a.raises_or_argsOk with ⟨f, hr⟩ | ⟨ha, sl, hs⟩
  · rw [hr, hr]
    rfl
  cases ho : (s.bd sl).own with
  | cpu =>
    have ho' : ((s.withContext c).bd sl).own = .cpu := by rwa [State.bd_withContext]
    rw [ArmOp.run_of_cpu ha hs ho, ArmOp.run_of_cpu ha hs ho', ArmOp.after_withContext]
    rfl
  | sie =>
    have ho' : ((s.withContext c).bd sl).own = .sie := by rwa [State.bd_withContext]
    rw [ArmOp.run_of_sie ha hs ho, ArmOp.run_of_sie ha hs ho']
    rfl

/-! ### Running what is left of an invocation -/

/-- Without a fault, the state before the step plays no part (60_exceptions R158). -/
theorem drive_arm_before {a : ArmOp} (h : a.legal = true) (b b' : State) (k : List IsrOp) (s : State) :
    drive b (.arm a :: k) s = drive b' (.arm a :: k) s := by
  rcases ArmOp.run_of_legal h s with ⟨sl, hr⟩ | hr
  · rw [drive_arm_done b k hr, drive_arm_done b' k hr]
  · rw [drive_arm_hold b k hr, drive_arm_hold b' k hr]

theorem drive_before : ∀ {l : List IsrOp}, l.all IsrOp.legal = true → ∀ b b' s : State, drive b l s = drive b' l s
  | [], _, _, _, _ => rfl
  | .ret :: _, _, _, _, _ => rfl
  | .pktdisOff :: k, h, b, b', _ => drive_before (l := k) h b b' _
  | .dequeue :: k, h, b, b', _ => drive_before (l := k) h b b' _
  | .arm _ :: k, h, b, b', s =>
    drive_arm_before (Bool.and_eq_true_iff.mp h).1 b b' k s

/-- What a handler may leave to do before the completion is consumed: arming operations that raise no fault, and the end
of `out_complete(0)`. -/
def IsrOp.ofHandler : IsrOp → Bool
  | .arm a => a.legal
  | .pktdisOff => true
  | .dequeue | .ret => false

theorem IsrOp.legal_of_ofHandler {o : IsrOp} (h : o.ofHandler = true) : o.legal = true := by
  cases o with
  | arm => exact h
  | _ => rfl

theorem legal_of_ofHandler {ops : List IsrOp} (h : ops.all IsrOp.ofHandler = true) : ops.all IsrOp.legal = true :=
  List.all_eq_true.mpr fun o ho => IsrOp.legal_of_ofHandler (List.all_eq_true.mp h o ho)

theorem legal_append_ret {ops : List IsrOp} (h : ops.all IsrOp.legal = true) :
    (ops ++ [IsrOp.ret]).all IsrOp.legal = true := by
  rw [List.all_append, h]
  rfl

/-- What a handler leaves to do runs through to what follows it, or stops at one of its arms with what follows left to
do; either way alike in every context. -/
theorem drive_handler : ∀ {ops : List IsrOp}, ops.all IsrOp.ofHandler = true → ∀ u : State,
    (∃ v : State, v.ustatq = u.ustatq
        ∧ ∀ b k c, ∃ b', drive b (ops ++ k) (u.withContext c) = drive b' k (v.withContext c))
      ∨ ∃ (v : State) (a : ArmOp) (rest : List IsrOp),
          ∀ b k c, drive b (ops ++ k) (u.withContext c) = (v.withContext c).atHold a (rest ++ k)
  | [], _, u => .inl ⟨u, rfl, fun b _ _ => ⟨b, rfl⟩⟩
  | .pktdisOff :: ops, h, u => drive_handler (ops := ops) h { u with pktdis := false }
  | .arm a :: ops, h, u => by
    obtain ⟨ha, hops⟩ := Bool.and_eq_true_iff.mp h
    rcases ArmOp.run_of_legal ha u with ⟨sl, hr⟩ | hr
    · have hrun (c : Context) : a.run (u.withContext c) = .done ((a.after sl u).withContext c) := by
        rw [ArmOp.run_withContext, hr]
        rfl
      have hq : (a.after sl u).ustatq = u.ustatq := by rw [ArmOp.run_eq hr]
      refine (drive_handler hops (a.after sl u)).imp ?_ ?_
      · rintro ⟨v, hv, hdrive⟩
        refine ⟨v, hv.trans hq, fun b k c => ?_⟩
        obtain ⟨b', hb'⟩ := hdrive ((u.withContext c).atHold a (ops ++ k)) k c
        exact ⟨b', (drive_arm_done b (ops ++ k) (hrun c)).trans hb'⟩
      · rintro ⟨v, a', rest, hdrive⟩
        exact ⟨v, a', rest, fun b k c => (drive_arm_done b (ops ++ k) (hrun c)).trans (hdrive _ k c)⟩
    · refine .inr ⟨u, a, ops, fun b k c => drive_arm_hold b (ops ++ k) ?_⟩
      rw [ArmOp.run_withContext, hr]
      rfl

end Sys2Proof.Machine

namespace Sys2Proof.Machine

open Sys2Proof.Spec0

/-! ### Plans in another context

No rule of the ISR context reads INISR, KISR or the program: in another context it writes the same and leaves the same to
do. -/

/-- A plan whose own writes end in the image of a state. -/
def mapPlan (f : State → State) : Plan → Plan
  | .error c => .error c
  | .ok (s, ops) => .ok (f s, ops)

/-- The row of a SETUP packet reads of the state the catalog and PENDADDR alone, and writes CTRL and PENDADDR
(41_control_transfer R94 to R105). -/
theorem setupPlan_map {f : State → State} (hcfg : ∀ s, (f s).cfg = s.cfg)
    (hctrl : ∀ s c, { f s with ctrl := c } = f { s with ctrl := c })
    (hpend : ∀ s p, { f s with pendAddr := p } = f { s with pendAddr := p }) (i : Instr) (s : State) :
    setupPlan i (f s) = mapPlan f (setupPlan i s) := by
  have hbegin : setupBegin (f s) = f (setupBegin s) := hctrl s .awaitingRequest
  have hdrop : planDrop (f s) = mapPlan f (planDrop s) := by rw [planDrop, hbegin]; rfl
  have hnodata (b : Byte) : planClassNodata b (f s) = mapPlan f (planClassNodata b s) := by
    rw [planClassNodata_eq, planClassNodata_eq, hbegin]; rfl
  have hdata (b : Byte) : planClassData b (f s) = mapPlan f (planClassData b s) := by
    rw [planClassData, hbegin, hctrl]; rfl
  cases i
  case getDescriptorDevice => simp only [setupPlan, planDevice, hbegin, hcfg, mapPlan]
  case getDescriptorConfiguration h index wIndex wLength =>
    simp only [setupPlan, planConfiguration, hbegin, hcfg]
    split
    · exact hdrop
    · rfl
  case getDescriptorString h index wIndex wLength =>
    simp only [setupPlan, planString, hbegin, hcfg]
    split
    · exact hdrop
    · rfl
  case getDescriptorDeviceQualifier => simp only [setupPlan, planDeviceQualifier, hbegin, mapPlan]
  case setAddress => simp only [setupPlan, planSetAddress, hbegin, hpend, mapPlan]
  case setConfiguration => simp only [setupPlan, planSetConfiguration, hbegin, mapPlan]
  case classNodata => exact hnodata _
  case vendorNodata => exact hnodata _
  case classData => exact hdata _
  case vendorData => exact hdata _
  all_goals exact hdrop

/-! The two cases of `in_complete` (42_dispatcher R117). -/

theorem inComplete_of_pending {s : State} {a : BitVec 7} (h : s.pendAddr = some a) (ep : BitVec 4) :
    inComplete ep s = { s with addr := a, pendAddr := none } := by simp only [inComplete, h]

theorem inComplete_of_none {s : State} (h : s.pendAddr = none) (ep : BitVec 4) :
    inComplete ep s = if ep = 2 then txDone s else s := by
  by_cases he : ep = 2
  · simp only [inComplete, h, inCallback_eq, if_pos he]
  · simp only [inComplete, h, inCallback_eq, if_neg he]

section Plans

variable (s : State) (c : Context)

theorem setupPlan_withContext (i : Instr) :
    setupPlan i (s.withContext c) = mapPlan (·.withContext c) (setupPlan i s) :=
  setupPlan_map (f := (·.withContext c)) (fun _ => rfl) (fun _ _ => rfl) (fun _ _ => rfl) i s

theorem process_withContext (b : Byte) (payload : Option (List Byte)) :
    process b payload (s.withContext c) = (process b payload s).withContext c := by
  unfold process decodeClassReq
  split
  · simp only [classReqEffect, processSetLineCoding]
    split <;> rfl
  · split <;> rfl

theorem planEp0Out_withContext : planEp0Out (s.withContext c) = mapPlan (·.withContext c) (planEp0Out s) := by
  cases hc : s.ctrl with
  | awaitingRequest => simp only [planEp0Out, show (s.withContext c).ctrl = _ from hc, hc, mapPlan]
  | awaitingPayload req =>
    simp only [planEp0Out, show (s.withContext c).ctrl = _ from hc, hc, planClassPayload, process_withContext]
    rfl

theorem ringAppend_withContext : ∀ (d : List Byte) (s : State),
    ringAppend d (s.withContext c) = ((ringAppend d s).1.withContext c, (ringAppend d s).2)
  | [], _ => rfl
  | b :: d, s => by
    have hroom : ((s.withContext c).occ.toNat < (s.withContext c).cfg.rxCap) = (s.occ.toNat < s.cfg.rxCap) := rfl
    by_cases h : s.occ.toNat < s.cfg.rxCap
    · rw [ringAppend, ringAppend, if_pos h, if_pos (hroom ▸ h)]
      exact ringAppend_withContext d (ringPush b s)
    · rw [ringAppend, ringAppend, if_neg h, if_neg (hroom ▸ h), ringAppend_withContext d s]

theorem rxStore_withContext (d : List Byte) : rxStore d (s.withContext c) = (rxStore d s).withContext c := by
  simp only [rxStore, ringAppend_withContext, emitOverflow]
  split <;> rfl

theorem planRxCallback_withContext (d : List Byte) :
    planRxCallback d (s.withContext c) = mapPlan (·.withContext c) (planRxCallback d s) := by
  rw [planRxCallback, rxStore_withContext]
  rfl

theorem outHandler_mapPlan (f : State → State) (endp : BitVec 4) (p : Plan) :
    outHandler endp (mapPlan f p) = mapPlan f (outHandler endp p) := by cases p <;> rfl

theorem outDonePlan_withContext (i : Instr) :
    outDonePlan i (s.withContext c) = mapPlan (·.withContext c) (outDonePlan i s) := by
  cases i
  case ep0Setup => exact (congrArg (outHandler 0) (setupPlan_withContext s c _)).trans (outHandler_mapPlan ..)
  case ep0TokenOut => exact (congrArg (outHandler 0) (planEp0Out_withContext s c)).trans (outHandler_mapPlan ..)
  case dataTokenOut =>
    exact (congrArg (outHandler _) (planRxCallback_withContext s c _)).trans (outHandler_mapPlan ..)
  all_goals rfl

theorem planClassify_withContext (pid : BitVec 4) :
    planClassify pid (s.withContext c) = mapPlan (·.withContext c) (planClassify pid s) := by
  by_cases h : ∀ d, s.ustatq.head? = some d → d.dir = .inn
  · rw [planClassify_inn pid h, planClassify_inn (s := s.withContext c) pid h]
    rfl
  · obtain ⟨e, q, hq⟩ : ∃ e q, s.ustatq = ⟨e, .out⟩ :: q := by
      match hq : s.ustatq with
      | [] => exact absurd (by simp [hq]) h
      | ⟨e, .inn⟩ :: q => exact absurd (by simp [hq]) h
      | ⟨e, .out⟩ :: q => exact ⟨e, q, rfl⟩
    rw [planClassify_out pid hq, planClassify_out (s := s.withContext c) pid hq, outDonePlan_withContext]

theorem inComplete_withContext (ep : BitVec 4) :
    inComplete ep (s.withContext c) = (inComplete ep s).withContext c := by
  cases h : s.pendAddr with
  | some a =>
    rw [inComplete_of_pending h, inComplete_of_pending (s := s.withContext c) h]
    rfl
  | none =>
    rw [inComplete_of_none h, inComplete_of_none (s := s.withContext c) h]
    split <;> rfl

theorem onStall_withContext : onStall (s.withContext c) = (onStall s).withContext c := by
  rw [onStall_eq, onStall_eq]
  rfl

theorem planTrnOut_of_none {ep : BitVec 4} (h : slotOf ep .out = none) : planTrnOut ep s = .error .noDescriptor := by
  rw [planTrnOut, planOutComplete, h]

variable {s} in
theorem planTrnOut_of_ok {ep : BitVec 4} {sl : Slot} {u : State} {ops : List IsrOp} (h : slotOf ep .out = some sl)
    (hp : outDonePlan (decodeOutDone ep (s.bd sl).pid) s = .ok (u, ops)) :
    planTrnOut ep s = .ok (u, ops ++ [IsrOp.dequeue]) := by
  simp only [planTrnOut, planOutComplete, h, hp]

theorem planTrnOut_withContext (ep : BitVec 4) :
    planTrnOut ep (s.withContext c) = mapPlan (·.withContext c) (planTrnOut ep s) := by
  cases h : slotOf ep .out with
  | none => rw [planTrnOut_of_none _ h, planTrnOut_of_none _ h]; rfl
  | some sl =>
    obtain ⟨u, ops, hp, -⟩ := outDonePlan_plans (decodeOutDone_format ep (s.bd sl).pid) s
    have hp' : outDonePlan (decodeOutDone ep ((s.withContext c).bd sl).pid) (s.withContext c)
        = .ok (u.withContext c, ops) := by
      rw [State.bd_withContext, outDonePlan_withContext, hp]
      rfl
    rw [planTrnOut_of_ok h hp, planTrnOut_of_ok h hp']
    rfl

theorem planOnStall_withContext : planOnStall (s.withContext c) = mapPlan (·.withContext c) (planOnStall s) := by
  rw [planOnStall, onStall_withContext]
  rfl

theorem planTrnIn_withContext (ep : BitVec 4) :
    planTrnIn ep (s.withContext c) = mapPlan (·.withContext c) (planTrnIn ep s) := by
  rw [planTrnIn, inComplete_withContext]
  rfl

theorem irqPlan_withContext (i : Instr) :
    irqPlan i (s.withContext c) = mapPlan (·.withContext c) (irqPlan i s) := by
  cases i
  case dispatchError stallf trnf dir ep =>
    match stallf, trnf, dir with
    | true, _, _ => exact planOnStall_withContext { s with ueir := 0 } c
    | false, false, _ => rfl
    | false, true, .inn => exact planTrnIn_withContext { s with ueir := 0 } c ep
    | false, true, .out => exact planTrnOut_withContext { s with ueir := 0 } c ep
  case dispatchStall => exact planOnStall_withContext s c
  case dispatchTrnIn ep => exact planTrnIn_withContext s c ep
  case dispatchTrnOut ep => exact planTrnOut_withContext s c ep
  all_goals rfl

end Plans

/-! ### What the rows leave to do raises no fault -/

theorem Ep0Ops.ofHandler {ops : List IsrOp} (h : Ep0Ops ops) : ops.all IsrOp.ofHandler = true := by
  cases h with
  | none | rearm => rfl
  | answer _ ha => simp [IsrOp.ofHandler, ha]; rfl

theorem endOps_ofHandler (e : Bool) : (endOps e).all IsrOp.ofHandler = true := by cases e <;> rfl

/-- A row that is no arming operation itself leaves to do what a handler may (42_dispatcher R118, R119). -/
theorem RowPlans.ofHandler {i : Instr} {s u : State} {ops : List IsrOp} (h : RowPlans i s u ops)
    (hi : armOf i = none) : ops.all IsrOp.ofHandler = true := by
  cases h with
  | nothing e => exact endOps_ofHandler e
  | arm ha => rw [hi] at ha; cases ha
  | control e _ _ hops => rw [List.all_append, hops.ofHandler, endOps_ofHandler]; rfl
  | receive | sent => rfl

theorem armOf_irq16 {i : Instr} (h : i.format = .irq16) : armOf i = none := by cases i <;> cases h <;> rfl

theorem armOf_outdone8 {i : Instr} (h : i.format = .outdone8) : armOf i = none := by cases i <;> cases h <;> rfl

theorem armOf_isIsrRow {i : Instr} (h : isIsrRow i = true) : armOf i = none := by cases i <;> cases h <;> rfl

theorem IrqPlans.legal {i : Instr} {s u : State} {ops : List IsrOp} (hf : i.format = .irq16) (h : IrqPlans i s u ops) :
    ops.all IsrOp.legal = true := by
  cases h with
  | out _ hp => rw [List.all_append, legal_of_ofHandler (hp.ofHandler (armOf_irq16 hf))]; rfl
  | _ => rfl

/-! ### Rows inside and outside an invocation -/

/-- A row of the ISR context runs one rule, whose effect does not depend on the context. -/
theorem exec_isIsrRow {i : Instr} (h : isIsrRow i = true) :
    ∃ plan : State → Plan, (∀ s, exec i s = isrRow plan s)
      ∧ (∀ s, ∃ u ops, plan s = .ok (u, ops) ∧ ops.all IsrOp.ofHandler = true)
      ∧ ∀ s c, plan (s.withContext c) = mapPlan (·.withContext c) (plan s) := by
  have handler {plan : State → Plan} (hp : ∀ s, ∃ u ops, plan s = .ok (u, ops) ∧ RowPlans i s u ops) (s : State) :
      ∃ u ops, plan s = .ok (u, ops) ∧ ops.all IsrOp.ofHandler = true := by
    obtain ⟨u, ops, heq, hrow⟩ := hp s
    exact ⟨u, ops, heq, hrow.ofHandler (armOf_isIsrRow h)⟩
  cases hf : i.format with
  | setup64 =>
    exact ⟨_, exec_setup64 hf, handler (setupPlan_plans hf), fun s c => setupPlan_withContext s c i⟩
  | outdone8 =>
    exact ⟨_, exec_outdone8 hf, handler (outDonePlan_plans hf), fun s c => outDonePlan_withContext s c i⟩
  | pid4 => exact ⟨_, exec_pid4 hf, handler (planClassify_plans hf), fun s c => planClassify_withContext s c _⟩
  | call8 =>
    cases i
    case rxCallback d =>
      exact ⟨planRxCallback d, fun _ => rfl, fun s => ⟨_, _, rfl, rfl⟩, fun s c => planRxCallback_withContext s c d⟩
    case txDoneCallback => exact ⟨planTxDone, fun _ => rfl, fun s => ⟨_, _, rfl, rfl⟩, fun _ _ => rfl⟩
    all_goals cases hf <;> cases h
  | classreq8 | irq16 | busev8 => cases i <;> cases hf <;> cases h

theorem State.withContext_inside {s : State} {k : List IsrOp} (hi : s.inisr = true) (hk : s.kisr = .active k)
    (l : List Line) : s.withContext (.isr k l) = { s with feed := l } := by
  rw [State.withContext, Context.isr, ← hi, ← hk]

theorem isrResume_of_active {s : State} {k : List IsrOp} (h : s.kisr = .active k) :
    isrResume s = .next (drive s k s) := by
  simp only [isrResume, h, runPlan, List.nil_append]

/-- The first line of the program chooses the step (30_encoding R87). -/
theorem step_line {s : State} {line : Line} {rest : List Line} (hfault : s.fault = none)
    (hfeed : s.feed = line :: rest) : step s = lineStep line rest s := by simp only [step, agentStep, hfault, hfeed]

/-- `ISR.RUN` continues the invocation in progress (30_encoding R87). -/
theorem step_isrRun {s : State} (hfault : s.fault = none) (k : List IsrOp) (l : List Line) :
    step (s.withContext (.isr k (.isrRun :: l)))
      = .next (drive (s.withContext (.isr k l)) k (s.withContext (.isr k l))) :=
  (step_line (s := s.withContext (.isr k (.isrRun :: l))) hfault rfl).trans
    (isrResume_of_active (s := s.withContext (.isr k l)) rfl)

/-- Settles O12: what the row leaves to do runs through alike inside and outside, and the rest of the invocation
follows. -/
theorem rowInsideAnInvocation : Obligations.RowInsideAnInvocation := by
  intro i k s t l hi hinisr hkisr hk hfault ht htinisr htfault
  obtain ⟨plan, hexec, hplan, hctx⟩ := exec_isIsrRow hi
  obtain ⟨u, ops, hu, hops⟩ := hplan s
  have hplanned (c : Context) : plan (s.withContext c) = .ok (u.withContext c, ops) := by
    rw [hctx, hu]
    rfl
  have hinside : exec i { s with feed := l } =
      .next (drive { s with feed := l } (ops ++ k) (u.withContext (.isr k l))) := by
    rw [hexec, isrRow_of_active (s := { s with feed := l }) hkisr, ← State.withContext_inside hinisr hkisr l, hplanned]
    rfl
  obtain ⟨b, houtside⟩ : ∃ b, drive b (ops ++ [IsrOp.ret]) (u.withContext (.isr [.ret] s.feed)) = t := by
    rw [hexec, isrRow_of_inactive rfl] at ht
    obtain ⟨-, ht⟩ := isrInvoke_next ht
    exact ⟨_, Host.Outcome.next.inj (ht ▸ congrArg (runPlan _ · [.ret]) (hplanned (.isr [.ret] s.feed)).symm)⟩
  rcases drive_handler hops u with ⟨v, -, hdrive⟩ | ⟨v, a, rest, hdrive⟩
  · obtain ⟨b₁, h₁⟩ := hdrive b [.ret] (.isr [.ret] s.feed)
    obtain ⟨b₂, h₂⟩ := hdrive { s with feed := l } k (.isr k l)
    obtain rfl := h₁.symm.trans houtside
    calc exec i { s with feed := l }
      _ = .next (drive b₂ k (v.withContext (.isr k l))) := hinside.trans (congrArg _ h₂)
      _ = .next (drive (v.withContext (.isr k l)) k (v.withContext (.isr k l))) := congrArg _ (drive_before hk ..)
      _ = step (v.withContext (.isr k (.isrRun :: l))) := (step_isrRun htfault k l).symm
  · obtain rfl := (hdrive ..).symm.trans houtside
    cases htinisr

end Sys2Proof.Machine

namespace Sys2Proof.Machine

open Sys2Proof.Spec0

/-! ### Dispatcher rows -/

/-- A dispatcher row is an invocation (42_dispatcher R111). -/
theorem exec_irq16_of_canEnter {i : Instr} {s : State} (hf : i.format = .irq16) (hs : CanEnter s) :
    exec i s = runPlan s (irqPlan i s.enterIsr) [.ret] := by
  rw [exec_irq16 hf, isrInvoke_of_ready (isrReady_of_canEnter hs)]

/-- An invocation with nothing left to do returns (42_dispatcher R120). -/
theorem runPlan_returns {u v : State} (hu : Calm u) (hv : v = u.enterIsr) (b : State) :
    runPlan b (.ok (v, [])) [.ret] = .next u := by
  obtain ⟨hinisr, hkisr⟩ := hu
  rw [hv]
  exact congrArg Host.Outcome.next (leave_enter hkisr hinisr)

/-- Settles O18: the rule writes RSTF and leaves nothing to do. -/
theorem resetInvocationClearsRstfAlone : Obligations.ResetInvocationClearsRstfAlone := by
  intro errf stallf trnf dir endp s hs
  obtain ⟨-, -, hcalm⟩ := id hs
  rw [exec_irq16_of_canEnter rfl hs]
  exact runPlan_returns (u := { s with rstf := false }) hcalm rfl s

/-- Settles O20: the rule releases the stalled endpoints and leaves nothing to do. That STAT of a released descriptor shows
the CPU view is log entry 13. -/
theorem stallInvocationReleasesStalledEndpoints : Obligations.StallInvocationReleasesStalledEndpoints := by
  intro trnf dir endp s hs free
  obtain ⟨-, -, hcalm⟩ := id hs
  rw [exec_irq16_of_canEnter rfl hs]
  refine runPlan_returns ?_ ?_ s
  · exact hcalm
  · exact onStall_eq s.enterIsr

/-! ### IN completions -/

/-- An IN completion is handled, then it leaves USTATQ (42_dispatcher R116, R117). -/
theorem exec_dispatchTrnIn {s u : State} {endp : BitVec 4} (hs : CanEnter s) (hu : Calm u)
    (h : inComplete endp s.enterIsr = u.enterIsr) :
    exec (.dispatchTrnIn endp) s = .next { u with ustatq := u.ustatq.tail } := by
  have hplan : irqPlan (.dispatchTrnIn endp) s.enterIsr = .ok (u.enterIsr, [.dequeue]) := by
    rw [irqPlan, planTrnIn, h]
  rw [exec_irq16_of_canEnter rfl hs, hplan]
  exact runPlan_returns (u := { u with ustatq := u.ustatq.tail }) hu rfl s

/-- Settles O21: by PENDADDR, and else by the endpoint's callback. -/
theorem inCompletionAppliesAddressOrCallsBack : Obligations.InCompletionAppliesAddressOrCallsBack := by
  intro endp s hs
  obtain ⟨-, -, hcalm⟩ := id hs
  refine ⟨fun a ha => ?_, fun hnone he => ?_, fun hnone he => ?_⟩
  · exact exec_dispatchTrnIn (u := { s with addr := a, pendAddr := none }) hs hcalm
      (inComplete_of_pending (s := s.enterIsr) ha endp)
  · exact exec_dispatchTrnIn (u := txDone s) hs hcalm
      ((inComplete_of_none (s := s.enterIsr) hnone endp).trans (if_pos he))
  · exact exec_dispatchTrnIn (u := s) hs hcalm
      ((inComplete_of_none (s := s.enterIsr) hnone endp).trans (if_neg he))

/-! ### The error check -/

/-- A dispatcher row that raises no fault does not depend on the state before it (60_exceptions R158). -/
theorem runPlan_irq_before {i : Instr} (hf : i.format = .irq16) {s : State} (h : ∀ c, irqPlan i s ≠ .error c)
    (b b' : State) : runPlan b (irqPlan i s) [.ret] = runPlan b' (irqPlan i s) [.ret] := by
  rcases irqPlan_cases hf s with ⟨c, hc⟩ | ⟨s0, u, ops, -, hu, hp⟩
  · exact absurd hc (h c)
  · rw [hu]
    exact congrArg Host.Outcome.next (drive_before (legal_append_ret (hp.legal hf)) ..)

/-- An error invocation goes on as the row whose rule follows the error check (42_dispatcher R112, R114). -/
theorem exec_dispatchError_goes_on {i : Instr} (hf : i.format = .irq16) {stallf trnf : Bool} {dir : Dir}
    {endp : BitVec 4} {s : State} (hs : CanEnter s) (hirq : ({ s with ueir := 0 } : State).irq = true)
    (hplan : irqPlan (.dispatchError stallf trnf dir endp) s.enterIsr = irqPlan i { s with ueir := 0 }.enterIsr)
    (hok : ∀ c, irqPlan i { s with ueir := 0 }.enterIsr ≠ .error c) :
    exec (.dispatchError stallf trnf dir endp) s = exec i { s with ueir := 0 } := by
  obtain ⟨-, hgie, hcalm⟩ := id hs
  rw [exec_irq16_of_canEnter rfl hs, exec_irq16_of_canEnter hf (s := { s with ueir := 0 }) ⟨hirq, hgie, hcalm⟩, hplan,
    runPlan_irq_before hf hok]

theorem planTrnOut_ok {ep : BitVec 4} (h : ep = 0 ∨ ep = 2) (s : State) (c : Fault) : planTrnOut ep s ≠ .error c := by
  obtain ⟨sl, hsl⟩ : ∃ sl, slotOf ep .out = some sl := by rcases h with rfl | rfl <;> exact ⟨_, rfl⟩
  obtain ⟨u, ops, hp, -⟩ := outDonePlan_plans (decodeOutDone_format ep (s.bd sl).pid) s
  rw [planTrnOut_of_ok hsl hp]
  exact nofun

/-- Settles O19: the row that follows the error check is the row of the flags that remain. -/
theorem errorInvocationClearsUeirAndGoesOn : Obligations.ErrorInvocationClearsUeirAndGoesOn := by
  intro stallf trnf dir endp s hs s0
  obtain ⟨-, -, hcalm⟩ := id hs
  refine ⟨fun hirq => ⟨?_, ?_, ?_⟩, ?_⟩
  · rintro rfl
    exact exec_dispatchError_goes_on rfl hs hirq rfl nofun
  · rintro rfl rfl rfl
    exact exec_dispatchError_goes_on rfl hs hirq rfl nofun
  · rintro rfl rfl rfl hep
    exact exec_dispatchError_goes_on rfl hs hirq rfl (planTrnOut_ok hep _)
  · rintro rfl rfl
    rw [exec_irq16_of_canEnter rfl hs]
    exact runPlan_returns (u := s0) hcalm rfl s

/-! ### OUT-direction completions -/

theorem exec_outdone8_of_canEnter {i : Instr} {s : State} (hf : i.format = .outdone8) (hs : CanEnter s) :
    exec i s = runPlan s (outDonePlan i s.enterIsr) [.ret] := by rw [exec_outdone8 hf, isrRow_of_canEnter hs]

/-- The state after received bytes are stored: the ring, DIAG and the inverted toggle of the data endpoint (44_byte_stream
R131 to R134). -/
def stored (s : State) (r : List Byte) (w : Nat) (o : BitVec 8) (g : List DiagRecord) : State :=
  { s with rxbuf := r, wr := w, occ := o, diag := g, outTog := { s.outTog with e2 := !s.outTog.e2 } }

/-- With its descriptor free DATA_TOKEN_OUT stores the bytes and re-arms with the inverted toggle (44_byte_stream
R131). -/
theorem exec_dataTokenOut_of_cpu {s : State} (hs : CanEnter s) (ho : s.bdt.ep2Out.own = .cpu) :
    ∃ r w o g, exec .dataTokenOut s
      = .next { stored s r w o g with bdt := { s.bdt with ep2Out := outArmed s.bdt.ep2Out (!s.outTog.e2) } } := by
  obtain ⟨-, -, hinisr, hkisr⟩ := id hs
  obtain ⟨r, w, o, g, hstore⟩ : ∃ r w o g, rxStore (received .ep2Out s) s.enterIsr = (stored s r w o g).enterIsr :=
    ⟨_, _, _, _, rxStore_frame ..⟩
  have hplan : outDonePlan .dataTokenOut s.enterIsr = planRxCallback (received .ep2Out s) s.enterIsr := rfl
  have hrun : (ArmOp.armOut 2 (!s.outTog.e2)).run (stored s r w o g).enterIsr = .done _ :=
    ArmOp.run_of_cpu (sl := .ep2Out) trivial rfl ho
  refine ⟨r, w, o, g, ?_⟩
  rw [exec_outdone8_of_canEnter rfl hs, hplan, planRxCallback, hstore]
  exact congrArg Host.Outcome.next ((drive_arm_done s [.ret] hrun).trans
    (leave_enter
      (s := { stored s r w o g with bdt := { s.bdt with ep2Out := outArmed s.bdt.ep2Out (!s.outTog.e2) } })
      hkisr hinisr))

/-- Settles O16: DATA_TOKEN_OUT has the plan of RX_CALLBACK, and the other rows leave nothing but the end of
`out_complete` to do. -/
theorem otherOutCompletions : Obligations.OtherOutCompletions := by
  intro endp pid s hs
  refine ⟨?_, fun ho => ?_, fun i hi => ?_⟩
  · exact (isrRow_of_canEnter hs planDataTokenOut).trans (isrRow_of_canEnter hs (planRxCallback _)).symm
  · obtain ⟨r, w, o, g, h⟩ := exec_dataTokenOut_of_cpu hs ho
    exact ⟨_, h, rfl⟩
  · have hrow : i.format = .outdone8 ∧ ∀ u, outDonePlan i u = .ok (u, outEnd endp) := by
      simp only [List.mem_cons, List.not_mem_nil, or_false] at hi
      rcases hi with rfl | rfl | rfl | rfl <;> exact ⟨rfl, fun _ => rfl⟩
    rw [exec_outdone8_of_canEnter hrow.1 hs, hrow.2, runPlan_outEnd hs]

/-! ### The dispatcher row of an OUT-direction completion -/

theorem decode_outdone8 (ep pid : BitVec 4) : decode .outdone8 [outDoneByte ep pid] = .ok (decodeOutDone ep pid) := by
  simp [decode, decodeOutDoneRec]

theorem ep_of_servesEp0 {ep pid : BitVec 4} (h : servesEp0 (decodeOutDone ep pid) = true) : ep = 0 := by
  revert ep pid
  decide

theorem ep_of_receives {ep pid : BitVec 4} (h : receives (decodeOutDone ep pid) = true) : ep = 2 := by
  revert ep pid
  decide

/-- With the descriptors it arms free, what a row leaves to do runs through to the return. -/
theorem RowPlans.returns {i : Instr} {s u : State} {ops : List IsrOp} (h : RowPlans i s u ops) (hi : armOf i = none)
    (hep0 : servesEp0 i = true → Ep0Free s) (hdata : receives i = true → s.bdt.ep2Out.own = .cpu) (b : State) :
    (drive b (ops ++ [IsrOp.ret]) u).inisr = false := by
  cases h with
  | nothing e => cases e <;> rfl
  | arm ha => rw [hi] at ha; cases ha
  | control e hserves _ hops =>
    obtain ⟨hin, hout⟩ := hep0 hserves
    rw [List.append_assoc]
    rcases hops.drive_cases _ with ⟨v, hv⟩ | ⟨hsie, -⟩
    · obtain ⟨b', hb'⟩ := hv b (endOps e ++ [IsrOp.ret])
      rw [hb']
      cases e <;> rfl
    · rcases hsie with hsie | hsie
      · cases hin.symm.trans hsie
      · cases hout.symm.trans hsie
  | receive d hrec =>
    have ho : ((rxStore d s).bd .ep2Out).own = .cpu := by
      rw [rxStore_frame]
      exact hdata hrec
    have hrun := ArmOp.run_of_cpu (a := .armOut 2 ((rxStore d s).outTog.get 2)) (sl := .ep2Out) trivial rfl ho
    exact congrArg State.inisr (drive_arm_done b [.ret] hrun)
  | sent => rfl

/-- A rule that raises a fault leaves the state as it was, with FAULT (60_exceptions R158). -/
theorem runPlan_raises {s : State} (h : s.fault = none) (c : Fault) (rest : List IsrOp) :
    runPlan s (.error c) rest = .next { s with fault := some c } := by
  rw [runPlan, State.raise, h]

/-- Settles O22: the row's operations end alike with the return and with the consumption of the completion behind
them. -/
theorem outCompletionRunsItsRow : Obligations.OutCompletionRunsItsRow := by
  refine ⟨fun endp sl i s hs hsl hdec => ?_, fun endp s hs hfault hdir => ?_⟩
  · obtain rfl : decodeOutDone endp (s.bd sl).pid = i := Except.ok.inj ((decode_outdone8 ..).symm.trans hdec)
    have hf := decodeOutDone_format endp (s.bd sl).pid
    obtain ⟨u, ops, hplan, hrow⟩ := outDonePlan_plans hf s.enterIsr
    have hexec : exec (decodeOutDone endp (s.bd sl).pid) s = .next (drive s (ops ++ [IsrOp.ret]) u) := by
      rw [exec_outdone8_of_canEnter hf hs, hplan]
      rfl
    have htrn : exec (.dispatchTrnOut endp) s = .next (drive s (ops ++ [IsrOp.dequeue, .ret]) u) := by
      have hpid : s.enterIsr.bd sl = s.bd sl := State.bd_congr rfl sl
      have hplan' : irqPlan (.dispatchTrnOut endp) s.enterIsr = .ok (u, ops ++ [IsrOp.dequeue]) :=
        planTrnOut_of_ok hsl (hpid ▸ hplan)
      rw [exec_irq16_of_canEnter rfl hs, hplan']
      exact congrArg (fun l => Host.Outcome.next (drive s l u)) (List.append_assoc ops [.dequeue] [.ret])
    rcases drive_handler (hrow.ofHandler (armOf_outdone8 hf)) u with ⟨v, hv, hdrive⟩ | ⟨v, a, rest, hdrive⟩
    · obtain ⟨b, hb⟩ := hdrive s [.ret] u.context
      obtain ⟨b', hb'⟩ := hdrive s [.dequeue, .ret] u.context
      obtain ⟨hq, -⟩ := hrow.queue
      have hq : v.ustatq.tail = s.ustatq.tail := congrArg List.tail (hv.trans hq)
      refine ⟨fun _ _ => ⟨_, hexec.trans (congrArg _ hb), ?_⟩, fun t k ht hk => ?_⟩
      · rw [htrn, ← hq]
        exact congrArg _ hb'
      · obtain rfl := Host.Outcome.next.inj ((hexec.trans (congrArg _ hb)).symm.trans ht)
        cases hk
    · have hheld (k : List IsrOp) := hdrive s k u.context
      refine ⟨fun hout hin => ?_, fun t k ht hk => ?_⟩
      · have hreturns := hrow.returns (armOf_outdone8 hf)
          (fun h => by
            obtain rfl := ep_of_servesEp0 h
            cases hsl
            exact ⟨hin rfl, hout⟩)
          (fun h => by
            obtain rfl := ep_of_receives h
            cases hsl
            exact hout) s
        cases (congrArg State.inisr (hheld [.ret])).symm.trans hreturns
      · obtain rfl := Host.Outcome.next.inj ((hexec.trans (congrArg _ (hheld _))).symm.trans ht)
        obtain rfl : .arm a :: rest = k := List.append_cancel_right (KIsr.active.inj hk)
        exact htrn.trans (congrArg _ (hheld _))
  · have hsl := slotOf_eq_none hdir
    have raises {i : Instr} (hf : i.format = .irq16) (hplan : irqPlan i s.enterIsr = .error .noDescriptor) :
        exec i s = .next { s with fault := some .noDescriptor } := by
      rw [exec_irq16_of_canEnter hf hs, hplan, runPlan_raises hfault]
    exact ⟨raises rfl (planTrnOut_of_none _ hsl), raises rfl (planTrnOut_of_none _ hsl)⟩

end Sys2Proof.Machine

namespace Sys2Proof.Machine

open Sys2Proof.Spec0

/-! ### A held SETUP row (42_dispatcher R120, R121) -/

/-- With endpoint 0 IN armed a handler that does not run through holds at its first operation. -/
theorem Ep0Ops.held {ops : List IsrOp} (h : Ep0Ops ops) {u b : State} (hin : u.bdt.ep0In.own = .sie)
    (hheld : (drive b (ops ++ [IsrOp.ret]) u).inisr = true) :
    drive b (ops ++ [IsrOp.ret]) u = u.inRest (ops ++ [IsrOp.ret])
      ∧ ∃ a rest, ops ++ [IsrOp.ret] = IsrOp.arm a :: rest ∧ a.run u = .hold := by
  cases h with
  | none => cases hheld
  | rearm t =>
    cases hout : u.bdt.ep0Out.own with
    | cpu => cases (congrArg State.inisr (drive_rearm hout b t [.ret])).symm.trans hheld
    | sie =>
      have hrun : (ArmOp.armOut 0 t).run u = .hold := ArmOp.run_of_sie (sl := .ep0Out) trivial rfl hout
      exact ⟨drive_arm_hold b [.ret] hrun, _, _, rfl, hrun⟩
  | answer hep hlegal =>
    have hrun := ArmOp.run_of_sie (ArmOp.argsOk_of_legal hlegal) (ArmOp.slot_of_ep0In hep) hin
    exact ⟨drive_arm_hold b _ hrun, _, _, rfl, hrun⟩

/-- What the bus may have left while an invocation holds, and the program. -/
def State.afterBus (bdt : Bdt) (ram : Memory) (q : List Completion) (ans : List Answer) (l : List Line) (s : State) :
    State :=
  { s with bdt := bdt, ram := ram, ustatq := q, answers := ans, feed := l }

theorem setupPlan_afterBus (bdt : Bdt) (ram : Memory) (q : List Completion) (ans : List Answer) (l : List Line)
    (i : Instr) (s : State) :
    setupPlan i (s.afterBus bdt ram q ans l) = mapPlan (State.afterBus bdt ram q ans l) (setupPlan i s) :=
  setupPlan_map (f := State.afterBus bdt ram q ans l) (fun _ => rfl) (fun _ _ => rfl) (fun _ _ => rfl) i s

theorem canEnter_afterBus {s : State} (hs : CanEnter s) (bdt : Bdt) (ram : Memory) {q : List Completion} (hq : q ≠ [])
    (ans : List Answer) (l : List Line) : CanEnter (s.afterBus bdt ram q ans l) := by
  obtain ⟨-, hrest⟩ := hs
  refine ⟨?_, hrest⟩
  cases q with
  | nil => exact absurd rfl hq
  | cons c q => exact Bool.or_true _

section Held

variable {i : Instr} {s u : State} {ops : List IsrOp} (l : List Line)

/-- `ISR.RUN` from a held SETUP row, after what the bus may have left, is the row from the state before with that. -/
theorem step_heldSetup_resumes (hf : i.format = .setup64) (hs : CanEnter s) (hfault : s.fault = none)
    (hplan : setupPlan i s.enterIsr = .ok (u, ops)) (hu : u.fault = s.fault) (hlegal : ops.all IsrOp.legal = true)
    (bdt : Bdt) (ram : Memory) {q : List Completion} (hq : q ≠ []) (ans : List Answer) :
    step ((u.inRest (ops ++ [IsrOp.ret])).afterBus bdt ram q ans (.isrRun :: l))
      = exec i (s.afterBus bdt ram q ans l) := by
  have hplan' : setupPlan i (s.afterBus bdt ram q ans l).enterIsr = .ok (u.afterBus bdt ram q ans l, ops) := by
    refine (setupPlan_afterBus bdt ram q ans l i s.enterIsr).trans ?_
    rw [hplan]
    rfl
  have hstep := step_isrRun (s := u.afterBus bdt ram q ans l) (hu.trans hfault) (ops ++ [IsrOp.ret]) l
  have hheld : (u.afterBus bdt ram q ans l).withContext (.isr (ops ++ [.ret]) l)
      = (u.afterBus bdt ram q ans l).inRest (ops ++ [IsrOp.ret]) := rfl
  rw [hheld, drive_inRest _ _ _ _ (by simp),
    drive_before (legal_append_ret hlegal) _ (s.afterBus bdt ram q ans l)] at hstep
  rw [exec_of_setupPlan (canEnter_afterBus hs bdt ram hq ans l) hf hplan']
  exact hstep

/-- `ISR.RUN` changes nothing while the condition at the hold point is false (30_encoding R87). -/
theorem step_isrRun_holds {a : ArmOp} {k rest : List IsrOp} (hfault : u.fault = none) (hk : k = IsrOp.arm a :: rest)
    (hrun : a.run u = .hold) :
    step { u.inRest k with feed := .isrRun :: l } = .next { u.inRest k with feed := l } := by
  subst hk
  have hrun' : a.run (u.withContext (.isr (.arm a :: rest) l)) = .hold := by
    rw [ArmOp.run_withContext, hrun]
    rfl
  exact (step_isrRun hfault (.arm a :: rest) l).trans (congrArg Host.Outcome.next (drive_arm_hold _ rest hrun'))

end Held

/-! ### Atomic steps of the ISR (00_scope R8, 92_eei_decisions D17) -/

theorem isrAtom_of_hold {s : State} {a : ArmOp} {k : List IsrOp} (hk : s.kisr = .active (.arm a :: k))
    (hrun : a.run s = .hold) : isrAtom s = s := by simp only [isrAtom, hk, hrun]

theorem isrAtom_of_done {s u : State} {a : ArmOp} {k : List IsrOp} (hk : s.kisr = .active (.arm a :: k))
    (hrun : a.run s = .done u) : isrAtom s = segment s k u := by simp only [isrAtom, hk, hrun]

theorem procAtom_of_ready {s : State} (h : s.isrReady = true) : procAtom s = isrEnterAtom s := by simp [procAtom, h]

theorem procAtom_inside {s : State} (hi : s.inisr = true) : procAtom s = .next (isrAtom s) := by
  simp [procAtom, State.isrReady, hi]

/-- While INISR = 1 an atomic step is one of the invocation in progress (42_dispatcher R121). -/
theorem step_proc_inside {s : State} {l : List Line} (hfault : s.fault = none) (hi : s.inisr = true)
    (hfeed : s.feed = .proc :: l) : step s = .next (isrAtom (s.setFeed l)) :=
  (step_line hfault hfeed).trans (procAtom_inside hi)

/-- One atomic step from a hold point does the arm there and stands at the next, or does nothing. -/
theorem step_proc_at_hold {s : State} {a : ArmOp} {k : List IsrOp} {l : List Line} (hfault : s.fault = none)
    (hi : s.inisr = true) (hk : s.kisr = .active (.arm a :: k)) (hfeed : s.feed = .proc :: l) :
    (a.run s = .hold → step s = .next { s with feed := l })
    ∧ ∀ u b k', a.run s = .done u → k = .arm b :: k' → b.legal = true →
        step s = .next { u with kisr := .active (.arm b :: k'), feed := l } := by
  have hrun : a.run (s.setFeed l) = (a.run s).withContext ⟨s.inisr, s.kisr, l⟩ := a.run_withContext s ⟨s.inisr, s.kisr, l⟩
  rw [step_proc_inside hfault hi hfeed]
  refine ⟨fun hhold => ?_, fun u b k' hdone hnext hlegal => ?_⟩
  · rw [hhold] at hrun
    rw [isrAtom_of_hold (s := s.setFeed l) hk hrun]
    rfl
  · rw [hdone] at hrun
    have hu : u.inisr = true := by rw [ArmOp.run_eq hdone]; exact hi
    rw [isrAtom_of_done (s := s.setFeed l) hk hrun, hnext,
      segment_arm _ k' (ArmOp.run_ne_raised hlegal _), State.atHold, ← hu]
    rfl

/-- What is left of an invocation returns without an arm, or comes to its first arm: there an atomic step ends, and the
whole rest goes on from there; alike in every context. -/
theorem segment_cases : ∀ {l : List IsrOp}, l.all IsrOp.legal = true → .ret ∈ l → ∀ u : State,
    (∃ v : State, ∀ b c, segment b l (u.withContext c) = (v.withContext c).leaveIsr
        ∧ drive b l (u.withContext c) = (v.withContext c).leaveIsr)
      ∨ ∃ (v : State) (a : ArmOp) (k : List IsrOp), ∀ b c, segment b l (u.withContext c) = (v.withContext c).atHold a k
          ∧ ∀ b', drive b l (u.withContext c) = drive b' (.arm a :: k) ((v.withContext c).atHold a k)
  | [], _, hret, _ => nomatch hret
  | .ret :: _, _, _, u => .inl ⟨u, fun _ _ => ⟨rfl, rfl⟩⟩
  | .pktdisOff :: k, hl, hret, u =>
    segment_cases (l := k) hl ((List.mem_cons.mp hret).resolve_left nofun) { u with pktdis := false }
  | .dequeue :: k, hl, hret, u =>
    segment_cases (l := k) hl ((List.mem_cons.mp hret).resolve_left nofun) { u with ustatq := u.ustatq.tail }
  | .arm a :: k, hl, hret, u => by
    have ha : a.legal = true := (Bool.and_eq_true_iff.mp hl).1
    refine .inr ⟨u, a, k, fun b c => ⟨segment_arm b k (ArmOp.run_ne_raised ha _), fun b' => ?_⟩⟩
    rw [State.atHold_eq, drive_inRest _ _ _ _ hret, drive_arm_before ha b b']

section Entry

variable {s : State} (l : List Line) (hfault : s.fault = none) (hr : s.isrReady = true)
include hfault hr

/-- The entry as one atomic step (42_dispatcher R111). -/
theorem step_proc_entry :
    step { s with feed := .proc :: l }
      = segmentPlan (s.setFeed l) (irqPlan (irqRow s) (s.setFeed l).enterIsr) [.ret] := by
  have hready : (s.setFeed l).isrReady = true := hr
  have henter : step { s with feed := .proc :: l } = isrEnterAtom (s.setFeed l) :=
    (step_line (s := { s with feed := .proc :: l }) hfault rfl).trans (procAtom_of_ready hready)
  rw [henter, isrEnterAtom, decode_irqRecord hready]
  rfl

/-- A line `ISR` (30_encoding R87). -/
theorem step_isr_entry :
    step { s with feed := .isr :: l }
      = runPlan (s.setFeed l) (irqPlan (irqRow s) (s.setFeed l).enterIsr) [.ret] := by
  have hready : (s.setFeed l).isrReady = true := hr
  have henter : step { s with feed := .isr :: l } = isrEnter (s.setFeed l) :=
    (step_line (s := { s with feed := .isr :: l }) hfault rfl).trans (if_pos hr)
  rw [henter, isrEnter_eq hready, exec_irq16 (irqRow_format _), isrInvoke_of_ready hready]
  rfl

/-- A line `ISR` is its first atomic step, and then, where that stands at a hold point, `ISR.RUN` (30_encoding R87). -/
theorem step_isr_eq_proc_isrRun {t : State} (ht : step { s with feed := .proc :: .isrRun :: l } = .next t)
    (htfault : t.fault = none) :
    (t.inisr = true → (∃ a k, t.kisr = .active (.arm a :: k)) ∧ step t = step { s with feed := .isr :: l })
    ∧ (t.inisr = false → step { s with feed := .isr :: l } = .next { t with feed := l }) := by
  rw [step_proc_entry (.isrRun :: l) hfault hr] at ht
  rw [step_isr_entry l hfault hr]
  have hplan (l : List Line) : irqPlan (irqRow s) (s.setFeed l).enterIsr
      = mapPlan (·.withContext (.isr [.ret] l)) (irqPlan (irqRow s) s.enterIsr) :=
    irqPlan_withContext s.enterIsr (.isr [.ret] l) (irqRow s)
  rcases irqPlan_cases (irqRow_format s) s.enterIsr with ⟨c, hc⟩ | ⟨s0, u, ops, -, hu, hp⟩
  · rw [hplan, hc] at ht
    obtain rfl := Host.Outcome.next.inj ht
    cases (State.raise_fault_none (s.setFeed (.isrRun :: l)) c hfault).symm.trans htfault
  · have hlegal := legal_append_ret (hp.legal (irqRow_format s))
    rw [hplan, hu] at ht
    rw [hplan, hu]
    rcases segment_cases hlegal (by simp) u with ⟨v, hv⟩ | ⟨v, a, k, hv⟩
    · obtain ⟨hseg, -⟩ := hv (s.setFeed (.isrRun :: l)) (.isr [.ret] (.isrRun :: l))
      obtain ⟨-, hdrive⟩ := hv (s.setFeed l) (.isr [.ret] l)
      obtain rfl := hseg.symm.trans (Host.Outcome.next.inj ht)
      exact ⟨nofun, fun _ => congrArg Host.Outcome.next hdrive⟩
    · obtain ⟨hseg, -⟩ := hv (s.setFeed (.isrRun :: l)) (.isr [.ret] (.isrRun :: l))
      obtain ⟨-, hdrive⟩ := hv (s.setFeed l) (.isr [.ret] l)
      obtain rfl := hseg.symm.trans (Host.Outcome.next.inj ht)
      refine ⟨fun _ => ⟨⟨a, k, rfl⟩, ?_⟩, nofun⟩
      exact (step_isrRun (s := v) htfault (.arm a :: k) l).trans (congrArg Host.Outcome.next (hdrive _).symm)

end Entry

/-- Settles O11: a held row has done nothing but its own writes; one atomic step; a line `ISR` as such steps. -/
theorem heldSetupResumesWhereItStopped : Obligations.HeldSetupResumesWhereItStopped := by
  refine ⟨fun i s t bdt ram q ans l hf hs hfault hin ht hheld => ?_,
    fun s a k l hfault hi hk hfeed => step_proc_at_hold hfault hi hk hfeed,
    fun s t l hfault hr ht htfault => step_isr_eq_proc_isrRun l hfault hr ht htfault⟩
  obtain ⟨u, ops, hplan, hops, hbdt, hufault⟩ : ∃ u ops, setupPlan i s.enterIsr = .ok (u, ops) ∧ Ep0Ops ops
      ∧ u.bdt = s.bdt ∧ u.fault = s.fault := by
    obtain ⟨c, p, ops, hplan, hops, -⟩ := setupPlan_cases i s.enterIsr
    exact ⟨_, ops, hplan, hops, rfl, rfl⟩
  obtain rfl := Host.Outcome.next.inj ((exec_of_setupPlan hs hf hplan).symm.trans ht)
  obtain ⟨hdrive, a, rest, hfirst, hrun⟩ := hops.held (u := u) (hbdt ▸ hin) hheld
  rw [hdrive]
  exact ⟨fun _ _ hq =>
      step_heldSetup_resumes l hf hs hfault hplan hufault (legal_of_ofHandler hops.ofHandler) bdt ram hq ans,
    step_isrRun_holds l (hufault.trans hfault) hfirst hrun⟩

end Sys2Proof.Machine

namespace Sys2Proof.Machine

open Sys2Proof.Spec0

/-! ### Masked interrupts (42_dispatcher R111, R121, 60_exceptions R166, R171) -/

/-- INISR, KISR, the flags and USTATQ are the same in both states. -/
def SameIrq (s t : State) : Prop :=
  t.inisr = s.inisr ∧ t.kisr = s.kisr ∧ t.ustatq = s.ustatq ∧ t.rstf = s.rstf ∧ t.ueir = s.ueir ∧ t.stallf = s.stallf

theorem SameIrq.refl (s : State) : SameIrq s s := ⟨rfl, rfl, rfl, rfl, rfl, rfl⟩

theorem fgStep_sameIrq {s t : State} (h : fgStep s = .moved t) : SameIrq s t :=
  fgStep_keeps (P := SameIrq s) (fun _ _ _ hs hr => by rw [ArmOp.run_eq hr]; exact hs)
    (hs := SameIrq.refl s) (h := h)

theorem fgOutcome_sameIrq {s t : State} (h : fgOutcome s = .next t) : SameIrq s t := by
  rcases fgOutcome_next h with hm | rfl | ⟨c, rfl⟩
  · exact fgStep_sameIrq hm
  · exact SameIrq.refl _
  · exact SameIrq.refl _

theorem fgCall_sameIrq {k : KFg} {s t : State} (h : fgCall k s = .next t) : SameIrq s t := by
  rcases fgCall_next h with hm | rfl | ⟨c, rfl⟩
  · exact fgStep_sameIrq (s := { s with kfg := k }) hm
  · exact SameIrq.refl _
  · exact SameIrq.refl _

/-! ### The rows that may be a line where no entry is due -/

/-- A row of the ISR context needs the entry condition (42_dispatcher R111; log entry 6). -/
theorem lineRefusal_eq_entryRefusal {i : Instr} (h : isrContext i = true) (s : State) :
    lineRefusal i s = s.entryRefusal := by
  cases i <;> cases h <;> rfl

theorem entryRefusal_ne_none {s : State} (hr : s.isrReady = false) : s.entryRefusal ≠ none := by
  rw [Ne, State.entryRefusal_none, hr]
  exact Bool.false_ne_true

/-- Where no entry is due the rows that may be a line are bus events, INIT and, outside the ISR, the calls of FG
(60_exceptions R162). -/
theorem admitted_cases {i : Instr} {s : State} (hr : s.isrReady = false) (h : lineRefusal i s = none) :
    i.format = .busev8 ∨ i = .init ∨ (i.format = .call8 ∧ i ≠ .init ∧ isrContext i = false) := by
  cases hc : isrContext i with
  | true => exact absurd (lineRefusal_eq_entryRefusal hc s ▸ h) (entryRefusal_ne_none hr)
  | false =>
    cases hf : i.format with
    | busev8 => exact .inl rfl
    | irq16 =>
      have heq : lineRefusal i s = s.entryRefusal := by simp [lineRefusal, hf, hr]
      exact absurd (heq ▸ h) (entryRefusal_ne_none hr)
    | call8 =>
      by_cases hi : i = .init
      · exact .inr (.inl hi)
      · exact .inr (.inr ⟨rfl, hi, rfl⟩)
    | setup64 | classreq8 | outdone8 | pid4 => simp [isrContext, hf] at hc

/-- Outside the ISR the other CALL8 rows are calls of FG (60_exceptions R162). -/
theorem exec_call8_outside {i : Instr} {s : State} (hf : i.format = .call8) (hi : i ≠ .init)
    (hc : isrContext i = false) (hinisr : s.inisr = false) : ∃ k, exec i s = fgCall k s := by
  have arm (a : ArmOp) : execArm a s = fgCall (.arm a) s := by simp [execArm, hinisr]
  cases i
  case init => exact absurd rfl hi
  case readCharacter | writeCharacter | writeString => exact ⟨_, rfl⟩
  case armOut | armIn | stallIn => exact ⟨_, arm _⟩
  case rxCallback | txDoneCallback => cases hc
  all_goals cases hf

/-- With no line left the processor side steps (60_exceptions R167; log entry 2). -/
theorem step_nil {s : State} (hfault : s.fault = none) (hfeed : s.feed = []) : step s = procStep s := by
  simp only [step, agentStep, hfault, hfeed]

/-- A line of a record is decoded, admitted and run (30_encoding R87). -/
theorem wordLine_next {f : Format} {bs : List Byte} {s t : State} (h : wordLine f bs s = .next t) :
    ∃ i, decode f bs = .ok i ∧ lineRefusal i s = none ∧ exec i s = .next t := by
  unfold wordLine at h
  split at h
  · cases h
  · next i hdec =>
    split at h
    · cases h
    · next href => exact ⟨i, hdec, href, h⟩

theorem busKept_outside : BusKept fun s => s.inisr = false where

/-! ### Steps where no entry is due -/

section Outside

variable {s t : State} (hi : s.inisr = false)
include hi

theorem fgCallLine_outside {k : KFg} {rest : List Line} (h : fgCallLine (fgCall k) rest s = .next t) :
    t.inisr = false := by
  obtain ⟨u, hu, rfl⟩ := fgCallLine_next.mp h
  exact (fgCall_sameIrq hu).1.trans hi

theorem fgRunLine_outside {rest : List Line} (h : fgRunLine rest s = .next t) : t.inisr = false := by
  obtain ⟨-, ⟨u, hu, rfl⟩ | ⟨-, rfl⟩ | ⟨c, -, rfl⟩⟩ := fgRunLine_next h
  · have hkept : u.inisr = false := (fgStep_sameIrq hu).1.trans hi
    split <;> exact hkept
  · exact hi
  · exact hi

variable (hr : s.isrReady = false)
include hr

theorem wordLine_outside {f : Format} {bs : List Byte} (h : wordLine f bs s = .next t) : t.inisr = false := by
  obtain ⟨i, hdec, href, hexec⟩ := wordLine_next h
  rcases admitted_cases hr href with hf | rfl | ⟨hf, hne, hc⟩
  · obtain rfl := (decode_format hdec).symm.trans hf
    exact busKept_outside.busRan (busRan_of_exec hf hexec) (decodeBusRec_ok hdec).2 hi
  · rw [execInit_next hexec]
    rfl
  · obtain ⟨k, hk⟩ := exec_call8_outside hf hne hc hi
    exact (fgCall_sameIrq (hk ▸ hexec)).1.trans hi

theorem procAtom_outside (h : procAtom s = .next t) : t.inisr = false := by
  rw [procAtom, if_neg (by simp [hr]), if_neg (by simp [hi])] at h
  exact (fgOutcome_sameIrq h).1.trans hi

theorem procStep_outside : procStep s = fgOutcome s := by
  rw [procStep, if_neg (by simp [hr]), if_neg (by simp [hi])]

/-- A step from outside the ISR leads into it only where the entry is due, whatever the line (42_dispatcher R111). -/
theorem step_outside (h : step s = .next t) : t.inisr = false := by
  obtain ⟨hfault, -⟩ := step_act h
  cases hfeed : s.feed with
  | nil =>
    rw [step_nil hfault hfeed, procStep_outside hi hr] at h
    exact (fgOutcome_sameIrq h).1.trans hi
  | cons line rest =>
    rw [step_line hfault hfeed] at h
    cases line with
    | word f bs => exact wordLine_outside (s := s.setFeed rest) hi hr h
    | isr => simp [lineStep, hr] at h
    | isrStar =>
      simp only [lineStep, hr] at h
      cases h
      exact hi
    | isrRun => simp [lineStep, hi] at h
    | fgRead => exact fgCallLine_outside hi h
    | fgWrite src => exact fgCallLine_outside hi h
    | fgPutc b => exact fgCallLine_outside hi h
    | fgRun => exact fgRunLine_outside hi h
    | proc => exact procAtom_outside (s := s.setFeed rest) hi hr h

end Outside

/-! ### Steps while INISR = 1 -/

/-- KFG, and what FG, an entry or a bus event alone would write, are the same in both states. -/
def SameFg (s t : State) : Prop :=
  t.kfg = s.kfg ∧ t.rd = s.rd ∧ t.gie = s.gie ∧ t.txReady = s.txReady ∧ t.inTog = s.inTog ∧ t.rstf = s.rstf
    ∧ t.ueir = s.ueir ∧ t.stallf = s.stallf ∧ t.epStall = s.epStall ∧ t.addr = s.addr

/-- The rest of an invocation writes none of these registers (42_dispatcher R121). -/
theorem isrResume_sameFg {s t : State} (h : isrResume s = .next t) : SameFg s t := by
  unfold isrResume at h
  split at h
  · cases h
    exact ⟨rfl, rfl, rfl, rfl, rfl, rfl, rfl, rfl, rfl, rfl⟩
  · next k _ =>
    obtain rfl := Host.Outcome.next.inj h
    rcases drive_eq ([] ++ k) s s with ⟨m, d, f, p, q, n, k', x, heq⟩ | ⟨c, heq⟩ <;> rw [heq] <;>
      exact ⟨rfl, rfl, rfl, rfl, rfl, rfl, rfl, rfl, rfl, rfl⟩

/-- The rows that may be a line where no entry is due are those of the bus, and CALL8 rows that are no rows of the ISR
(60_exceptions R162). -/
theorem wordLine_admitted {f : Format} {bs : List Byte} {s t : State} (hr : s.isrReady = false)
    (h : wordLine f bs s = .next t) :
    f = .busev8 ∨ (f = .call8 ∧ ∃ i, decode .call8 bs = .ok i ∧ isIsrRow i = false) := by
  obtain ⟨i, hdec, href, -⟩ := wordLine_next h
  have hf := decode_format hdec
  rcases admitted_cases hr href with hbus | rfl | ⟨hcall, -, hc⟩
  · exact .inl (hf.symm.trans hbus)
  · subst hf
    exact .inr ⟨rfl, .init, hdec, rfl⟩
  · obtain rfl := hf.symm.trans hcall
    rw [isrContext_eq, Bool.or_eq_false_iff] at hc
    exact .inr ⟨rfl, i, hdec, hc.1⟩

/-- Settles O43: where no entry is due a step stays outside the ISR, the lines that may then act are the bus's, INIT and
FG's, and the processor side's own steps keep what the statement names. -/
theorem maskedInterruptWaits : Obligations.MaskedInterruptWaits := by
  have masked {s : State} (hg : s.gie = false) : s.isrReady = false := by simp [State.isrReady, hg]
  refine ⟨fun s t h hi ht => ?_, fun s t line rest hfeed _ hi hg h => ?_,
    fun s t hfault hfeed h => ⟨fun hi => ?_, fun hg hi => ?_⟩⟩
  · cases hr : s.isrReady with
    | true => rfl
    | false => cases (step_outside hi hr h).symm.trans ht
  · obtain ⟨hfault, -⟩ := step_act h
    rw [step_line hfault hfeed] at h
    cases line with
    | word f bs =>
      rcases wordLine_admitted (s := s.setFeed rest) (masked hg) h with rfl | ⟨rfl, i, hdec, hrow⟩
      · simp
      · simpa using Or.inl ⟨i, hdec, hrow⟩
    | isr => simp [lineStep, masked hg] at h
    | isrStar =>
      simp only [lineStep, masked hg] at h
      cases h
      simp [State.setFeed]
    | isrRun => simp [lineStep, hi] at h
    | _ => simp
  · have hstep : procStep s = isrResume s := by simp [procStep, State.isrReady, hi]
    rw [step_nil hfault hfeed, hstep] at h
    exact isrResume_sameFg h
  · rw [step_nil hfault hfeed, procStep_outside hi (masked hg)] at h
    obtain ⟨hinisr, hrest⟩ := fgOutcome_sameIrq h
    exact ⟨hinisr.trans hi, hrest⟩

end Sys2Proof.Machine

namespace Sys2Proof.Machine

open Sys2Proof.Spec0

/-! ## Class and vendor requests (43_class_requests R123 to R129) -/

/-! ### The record SET_LINE_CODING keeps (43_class_requests R125, 30_encoding R80) -/

theorem LineCoding.ofPayload_of_le {d : List Byte} (h : 7 ≤ d.length) :
    ∃ l, LineCoding.ofPayload d = some l ∧ l.bytes = d.take 7 :=
  match d, h with
  | _ :: _ :: _ :: _ :: _ :: _ :: _ :: _, _ => ⟨_, rfl, rfl⟩

theorem LineCoding.ofPayload_of_lt {d : List Byte} (h : d.length < 7) : LineCoding.ofPayload d = none := by
  unfold LineCoding.ofPayload
  split
  · simp only [List.length_cons] at h
    omega
  · rfl

theorem processSetLineCoding_of_le {d : List Byte} (h : 7 ≤ d.length) (s : State) :
    ∃ l : LineCoding, l.bytes = d.take 7 ∧ processSetLineCoding (some d) s = { s with lineCoding := l } := by
  obtain ⟨l, hl, hbytes⟩ := LineCoding.ofPayload_of_le h
  exact ⟨l, hbytes, by simp only [processSetLineCoding, Option.bind_some, hl]⟩

theorem processSetLineCoding_of_lt {payload : Option (List Byte)} (h : ∀ d, payload = some d → d.length < 7)
    (s : State) : processSetLineCoding payload s = s := by
  cases payload with
  | none => rfl
  | some d => simp only [processSetLineCoding, Option.bind_some, LineCoding.ofPayload_of_lt (h d rfl)]

/-- Settles O13: a payload of seven bytes has a record, a shorter one or none has not, and the other rows have no
effect. -/
theorem classRequestsTouchLineCodingAlone : Obligations.ClassRequestsTouchLineCodingAlone := by
  intro b payload s
  refine ⟨?_, fun hshort => ?_, exec_classreq8 rfl s, exec_classreq8 rfl s⟩
  · rintro d rfl hlen
    obtain ⟨l, hbytes, hl⟩ := processSetLineCoding_of_le hlen s
    exact ⟨l, hbytes, (exec_classreq8 rfl s).trans (congrArg Host.Outcome.next hl)⟩
  · exact (exec_classreq8 rfl s).trans (congrArg Host.Outcome.next (processSetLineCoding_of_lt hshort s))

/-! ### Requests with free descriptors -/

/-- A class or vendor request with a data stage arms endpoint 0 OUT with toggle 1 and waits for the payload
(43_class_requests R123). -/
theorem exec_staged_of_free {i : Instr} {s : State} {b : Byte} (hs : CanEnter s) (hf : i.format = .setup64)
    (hp : setupPlan i s.enterIsr = planClassData b s.enterIsr) (hout : s.bdt.ep0Out.own = .cpu) :
    exec i s
      = .next { s with
          ctrl := .awaitingPayload b, bdt := { s.bdt with ep0Out := outArmed s.bdt.ep0Out true } } := by
  obtain ⟨-, -, hinisr, hkisr⟩ := id hs
  have hdrive := drive_rearm (u := { s.enterIsr with ctrl := .awaitingPayload b }) hout s true [.ret]
  rw [exec_of_setupPlan hs hf hp]
  refine congrArg Host.Outcome.next (hdrive.trans ?_)
  exact leave_enter (s := { s with
    ctrl := .awaitingPayload b, bdt := { s.bdt with ep0Out := outArmed s.bdt.ep0Out true } }) hkisr hinisr

/-- Settles O9: with a data stage the rows are staged, without one they answer with a zero-length packet. -/
theorem classRequestsAreStagedOrAcknowledged : Obligations.ClassRequestsAreStagedOrAcknowledged := by
  intro h b wValue wIndex wLength s hs hout
  refine ⟨⟨exec_staged_of_free hs rfl rfl hout, exec_staged_of_free hs rfl rfl hout⟩, fun hin => ?_⟩
  have acknowledges (i : Instr) (hi : i ∈ [Instr.setConfiguration h wValue wIndex wLength,
      .classNodata h b wValue wIndex, .vendorNodata h b wValue wIndex]) : exec i s = .next (acknowledged s) :=
    (answers_acknowledged h b wValue wIndex wLength s hi).exec_of_free hs ⟨hin, hout⟩
  exact ⟨acknowledges _ (by simp), acknowledges _ (by simp)⟩

end Sys2Proof.Machine

namespace Sys2Proof.Machine

open Sys2Proof.Spec0

/-! ## The byte stream (44_byte_stream R131 to R141) -/

/-! ### The chunks of a string -/

theorem chunkLen_le (total off : Nat) : chunkLen total off ≤ Config.maxP := Nat.min_le_right _ _

/-- A chunk is what is left of the string, cut to P_MAXP bytes. -/
theorem chunk_chunkLen (src : List Byte) (off : Nat) :
    chunk src off (chunkLen src.length off) = (src.drop off).take Config.maxP := by
  rw [chunk, chunkLen, ← List.length_drop, Nat.min_comm, ← List.take_eq_take_min]

/-- The first `k` chunks are the first `64 k` bytes. -/
theorem flatten_chunks (src : List Byte) : ∀ k : Nat,
    ((List.range k).map fun j => chunk src (64 * j) (chunkLen src.length (64 * j))).flatten = src.take (64 * k)
  | 0 => rfl
  | k + 1 => by
    rw [List.range_succ, List.map_append, List.flatten_append, flatten_chunks src k, Nat.mul_succ, List.take_add]
    simp [chunk_chunkLen, Config.maxP]

/-- Settles O31: the loop's test is that a chunk is left, and the chunks take the string 64 bytes at a time. -/
theorem chunksCoverTheString : Obligations.ChunksCoverTheString := by
  intro src hne k
  have hpos : 0 < src.length := List.length_pos_iff.mpr hne
  have hlen (off : Nat) : chunkLen src.length off = min (src.length - off) 64 := rfl
  have hleft (j : Nat) : 64 * j < src.length ↔ j < k := by omega
  have hfull (j : Nat) (hj : j + 1 < k) : chunkLen src.length (64 * j) = 64 := by rw [hlen]; omega
  have hlast : chunkLen src.length (64 * (k - 1)) = src.length - 64 * (k - 1) := by rw [hlen]; omega
  refine ⟨fun j => ?_, hfull, hlast, ?_, chunkLen_le .., ?_⟩
  · rw [writeFrom, if_congr (hleft j) rfl rfl]
  · rw [hlast]
    omega
  · rw [flatten_chunks, List.take_of_length_le (by omega)]

/-! ### The receive callback (44_byte_stream R131 to R134) -/

/-- Two places of the ring at different distances from RD, both less than the capacity, are different. -/
theorem add_mod_ne_of_lt {r i j c : Nat} (hij : i < j) (hj : j < c) : (r + i) % c ≠ (r + j) % c := fun h =>
  Nat.ne_of_lt hij (Nat.ModEq.eq_of_lt_of_lt (Nat.ModEq.add_left_cancel' r h) (Nat.lt_trans hij hj) hj)

theorem occ_ringPush (b : Byte) {s : State} (hs : RingOk s) (hroom : s.occ.toNat < s.cfg.rxCap) :
    (ringPush b s).occ.toNat = s.occ.toNat + 1 := by
  obtain ⟨-, hcap, -, -, -, -, -⟩ := hs
  show (s.occ + 1).toNat = _
  rw [BitVec.toNat_add]
  exact Nat.mod_eq_of_lt (by simp; omega)

theorem RingOk.wr_lt {s : State} (hs : RingOk s) : s.wr < s.cfg.rxCap := by
  obtain ⟨hpos, -, -, -, -, hwr, -⟩ := hs
  rw [hwr]
  exact Nat.mod_lt _ hpos

/-- A byte pushed where there is room comes after those in the ring. -/
theorem ringBytes_push (b : Byte) {s : State} (hs : RingOk s) (hroom : s.occ.toNat < s.cfg.rxCap) :
    ringBytes (ringPush b s) = ringBytes s ++ [b] := by
  obtain ⟨-, -, hlen, -, -, hwr, -⟩ := id hs
  have hin : s.wr < s.rxbuf.length := hlen ▸ hs.wr_lt
  have hold (i : Nat) (hi : i ∈ List.range s.occ.toNat) :
      (s.rxbuf.set s.wr b).getD ((s.rd + i) % s.cfg.rxCap) 0 = s.rxbuf.getD ((s.rd + i) % s.cfg.rxCap) 0 := by
    have hne : s.wr ≠ (s.rd + i) % s.cfg.rxCap := hwr ▸ (add_mod_ne_of_lt (List.mem_range.mp hi) hroom).symm
    simp only [List.getD_eq_getElem?_getD, List.getElem?_set_ne hne]
  have hnew : (s.rxbuf.set s.wr b).getD ((s.rd + s.occ.toNat) % s.cfg.rxCap) 0 = b := by
    rw [← hwr, List.getD_eq_getElem?_getD, List.getElem?_set_self hin, Option.getD_some]
  rw [ringBytes, occ_ringPush b hs hroom, List.range_succ, List.map_append]
  exact congrArg₂ (· ++ ·) (List.map_congr_left hold) (congrArg ([·]) hnew)

/-- The bytes `d` have been appended to the ring: they stand behind the others in the places from WR on, and no other
place has changed. -/
structure Appended (d : List Byte) (s t : State) : Prop where
  bytes : ringBytes t = ringBytes s ++ d
  occ : t.occ.toNat = s.occ.toNat + d.length
  wr : t.wr = (s.wr + d.length) % s.cfg.rxCap
  kept : ∀ i, (∀ j, j < d.length → i ≠ (s.wr + j) % s.cfg.rxCap) → t.rxbuf[i]? = s.rxbuf[i]?

theorem Appended.nil {s : State} (hs : RingOk s) : Appended [] s s where
  bytes := (List.append_nil _).symm
  occ := rfl
  wr := (Nat.mod_eq_of_lt hs.wr_lt).symm
  kept _ _ := rfl

/-- One byte more at the front: it is pushed first. -/
theorem Appended.cons {b : Byte} {d : List Byte} {s t : State} (hs : RingOk s) (hroom : s.occ.toNat < s.cfg.rxCap)
    (h : Appended d (ringPush b s) t) : Appended (b :: d) s t where
  bytes := by rw [h.bytes, ringBytes_push b hs hroom, List.append_assoc, List.singleton_append]
  occ := by rw [h.occ, occ_ringPush b hs hroom, List.length_cons, Nat.add_assoc, Nat.add_comm 1]
  wr := by
    rw [h.wr, List.length_cons, Nat.add_comm d.length, ← Nat.add_assoc]
    exact Nat.mod_add_mod ..
  kept i hi := by
    have hwr : s.wr ≠ i := fun heq =>
      hi 0 (Nat.zero_lt_succ _) (by rw [Nat.add_zero, Nat.mod_eq_of_lt hs.wr_lt, heq])
    have hrest (j : Nat) (hj : j < d.length) : i ≠ ((s.wr + 1) % s.cfg.rxCap + j) % s.cfg.rxCap := by
      rw [Nat.mod_add_mod, Nat.add_assoc, Nat.add_comm 1]
      exact hi (j + 1) (Nat.succ_lt_succ hj)
    exact (h.kept i hrest).trans (List.getElem?_set_ne hwr)

/-- As many bytes are appended as there is room for, and the others are counted (44_byte_stream R131 to R133). -/
theorem ringAppend_appended : ∀ (d : List Byte) {s : State}, RingOk s →
    Appended (d.take (s.cfg.rxCap - s.occ.toNat)) s (ringAppend d s).1
      ∧ (ringAppend d s).2 = d.length - (s.cfg.rxCap - s.occ.toNat)
  | [], s, hs => ⟨by rw [List.take_nil]; exact .nil hs, (Nat.zero_sub _).symm⟩
  | b :: d, s, hs => by
    by_cases hroom : s.occ.toNat < s.cfg.rxCap
    · obtain ⟨happ, hdrop⟩ := ringAppend_appended d (ringOk_push (b := b) hs hroom)
      have hleft : s.cfg.rxCap - s.occ.toNat = (s.cfg.rxCap - (ringPush b s).occ.toNat) + 1 := by
        rw [occ_ringPush b hs hroom]
        omega
      rw [ringAppend, if_pos hroom, hleft, List.take_succ_cons, List.length_cons, Nat.add_sub_add_right]
      exact ⟨happ.cons hs hroom, hdrop⟩
    · have hfull : s.cfg.rxCap ≤ s.occ.toNat := Nat.not_lt.mp hroom
      rw [ringAppend_full _ hfull, Nat.sub_eq_zero_of_le hfull]
      exact ⟨.nil hs, rfl⟩

/-- Besides appending the callback records the dropped bytes, if any, and inverts the toggle (44_byte_stream R131, R133,
R134). -/
theorem rxStore_eq (d : List Byte) (s : State) :
    rxStore d s = { (ringAppend d s).1 with
      diag := if (ringAppend d s).2 = 0 then s.diag else s.diag ++ [.rxOverflow (ringAppend d s).2],
      outTog := { s.outTog with e2 := !s.outTog.e2 } } := by
  have hframe := ringAppend_frame d s
  unfold rxStore emitOverflow
  generalize ringAppend d s = q at hframe ⊢
  obtain ⟨u, k⟩ := q
  dsimp only at hframe ⊢
  rw [hframe]
  split <;> rfl

/-- With its descriptor free RX_CALLBACK stores the bytes and re-arms with the inverted toggle (44_byte_stream R131). -/
theorem exec_rxCallback_of_cpu (d : List Byte) {s : State} (hs : CanEnter s) (ho : s.bdt.ep2Out.own = .cpu) :
    exec (.rxCallback d) s
      = .next { rxStore d s with bdt := { s.bdt with ep2Out := outArmed s.bdt.ep2Out (!s.outTog.e2) } } := by
  obtain ⟨-, -, hinisr, hkisr⟩ := id hs
  have hframe : rxStore d s = stored s _ _ _ _ := rxStore_frame d s
  have henter : rxStore d s.enterIsr = (rxStore d s).enterIsr := by
    refine (rxStore_withContext s (.isr [.ret] s.feed) d).trans ?_
    rw [hframe]
    rfl
  have hrow : exec (.rxCallback d) s = runPlan s (planRxCallback d s.enterIsr) [.ret] := isrRow_of_canEnter hs _
  rw [hrow, planRxCallback, henter, hframe]
  generalize (rxStore d s).rxbuf = r, (rxStore d s).wr = w, (rxStore d s).occ = o, (rxStore d s).diag = g
  have hrun : (ArmOp.armOut 2 (!s.outTog.e2)).run (stored s r w o g).enterIsr = .done _ :=
    ArmOp.run_of_cpu (sl := .ep2Out) trivial rfl ho
  exact congrArg Host.Outcome.next ((drive_arm_done s [.ret] hrun).trans
    (leave_enter
      (s := { stored s r w o g with bdt := { s.bdt with ep2Out := outArmed s.bdt.ep2Out (!s.outTog.e2) } })
      hkisr hinisr))

/-- Settles O27: what fits is appended and the rest is counted, before the re-arm; the other callback leaves nothing to
do. -/
theorem callbacksOfTheDataEndpoint : Obligations.CallbacksOfTheDataEndpoint := by
  constructor
  · intro d s hs hring ho n
    obtain ⟨⟨hbytes, hocc, hwr, hkept⟩, hdrop⟩ := ringAppend_appended d hring
    have htake : d.take (s.cfg.rxCap - s.occ.toNat) = d.take n := by rw [List.take_eq_take_min, Nat.min_comm]
    have hlen : (d.take n).length = n := by rw [List.length_take]; omega
    rw [htake] at hbytes
    rw [htake, hlen] at hocc hwr hkept
    have hdrop' : (ringAppend d s).2 = d.length - n := by omega
    have hnone : d.length - n = 0 ↔ n = d.length := by omega
    refine ⟨_, exec_rxCallback_of_cpu d hs ho, ?_⟩
    rw [rxStore_eq, hdrop', if_congr hnone rfl rfl, ← hwr]
    refine ⟨hbytes, hocc, ringAppend_length d s, hkept, ?_⟩
    rw [ringAppend_frame]
  · intro s hs
    obtain ⟨-, -, hcalm⟩ := id hs
    exact (isrRow_of_canEnter hs planTxDone).trans (runPlan_returns (u := { s with txReady := true }) hcalm rfl s)

/-! ### Calls of FG (44_byte_stream R135, R137, R139) -/

section Calls

variable {s : State} (h : FgFree s)
include h

theorem fgCall_read1 : fgCall .read1 s = .next { s with kfg := if s.occ = 0 then .read1 else .read2 } := by
  by_cases ho : s.occ = 0
  · rw [if_pos ho]
    exact fgCall_of_held h (if_pos ho)
  · rw [if_neg ho]
    exact fgCall_of_moved h (if_neg ho)

theorem fgCall_write1 (src : List Byte) (off : Nat) :
    fgCall (.write1 src off) s = .next { s with kfg := if s.txReady then .write2 src off else .write1 src off } := by
  by_cases hx : s.txReady = true
  · rw [if_pos hx]
    exact fgCall_of_moved h (if_pos hx)
  · rw [if_neg hx]
    exact fgCall_of_held h (if_neg hx)

/-- A string that is not empty is written from its first chunk. -/
theorem execWriteString_of_ne_nil {src : List Byte} (hne : src ≠ []) :
    execWriteString src s = .next { s with kfg := if s.txReady then .write2 src 0 else .write1 src 0 } := by
  rw [execWriteString, writeFrom, if_pos (List.length_pos_iff.mpr hne), fgCall_write1 h]

/-- An empty string returns at once. -/
theorem execWriteString_nil : execWriteString [] s = .next s := by
  obtain ⟨-, -, hkfg⟩ := id h
  exact (fgCall_of_held h rfl).trans (congrArg (fun k => Host.Outcome.next { s with kfg := k }) hkfg.symm)

end Calls

/-- The line of a call that has not returned is the call, and then FG.RUN in its place (30_encoding R87). -/
theorem step_call {line : Line} {call : State → Host.Outcome State Fault Refusal} {s : State} {l : List Line} {k : KFg}
    (hline : ∀ u, lineStep line l u = fgCallLine call l u) (hfault : s.fault = none)
    (hcall : call { s with feed := line :: l } = .next { s with kfg := k, feed := line :: l }) (hk : k ≠ .idle) :
    step { s with feed := line :: l } = .next { s with kfg := k, feed := .fgRun :: l } := by
  rw [step_line (s := { s with feed := line :: l }) hfault rfl, hline]
  exact fgCallLine_next.mpr ⟨_, hcall, by rw [if_neg hk]; rfl⟩

/-! ### The line FG.RUN (30_encoding R87) -/

section FgRun

variable {l : List Line} {s t : State}

theorem kfg_ne_idle_of_moved (h : fgStep s = .moved t) : s.kfg ≠ .idle := fun hk => by
  simp only [fgStep, hk] at h
  cases h

/-- FG.RUN ends at a hold whose condition is false. -/
theorem step_fgRun_of_held (hfault : s.fault = none) (hinisr : s.inisr = false) (hready : s.isrReady = false)
    (hfeed : s.feed = .fgRun :: l) (hk : s.kfg ≠ .idle) (h : fgStep s = .held) :
    step s = .next { s with feed := l } := by
  rw [step_line hfault hfeed, lineStep, fgRunLine, if_neg (by simp [hinisr]), if_neg (by simp [hready]), if_neg hk, h]
  rfl

/-- FG runs: no interrupt is pending, and the line is FG.RUN. -/
def FgRuns (l : List Line) (s : State) : Prop :=
  s.fault = none ∧ s.inisr = false ∧ s.irq = false ∧ s.feed = .fgRun :: l

theorem FgRuns.moved (hs : FgRuns l s) (h : fgStep s = .moved t) : FgRuns l t :=
  fgStep_keeps (P := FgRuns l) (fun _ _ _ hs hr => by rw [ArmOp.run_eq hr]; exact hs) (hs := hs) (h := h)

/-- FG.RUN is a step of FG, and the line stands until the operation returns. -/
theorem FgRuns.step_eq (hs : FgRuns l s) (h : fgStep s = .moved t) :
    step s = .next (t.setFeed (if t.kfg = .idle then l else .fgRun :: l)) := by
  have ready {u : State} (hu : FgRuns l u) : u.isrReady = false := by
    obtain ⟨-, -, hirq, -⟩ := hu
    simp [State.isrReady, hirq]
  have hready := ready (hs.moved h)
  obtain ⟨-, -, -, hfeed'⟩ := hs.moved h
  obtain ⟨hfault, hinisr, -, hfeed⟩ := id hs
  rw [step_line hfault hfeed, lineStep, fgRunLine, if_neg (by simp [hinisr]), if_neg (by simp [ready hs]),
    if_neg (kfg_ne_idle_of_moved h), h]
  simp only [hready, Bool.false_eq_true, or_false]
  split
  · rfl
  · rw [← hfeed']
    rfl

theorem run_succ_of_step (h : step s = .next t) (k : Nat) :
    Host.Core.run core (k + 1) s = Host.Core.run core k t := by
  have hcore : core.step s = .next t := h
  simp only [Host.Core.run, hcore]

theorem FgRuns.run_succ (hs : FgRuns l s) (h : fgStep s = .moved t) (hk : t.kfg ≠ .idle) (k : Nat) :
    Host.Core.run core (k + 1) s = Host.Core.run core k t := by
  obtain ⟨-, -, -, hfeed⟩ := hs.moved h
  rw [run_succ_of_step (hs.step_eq h), if_neg hk, ← hfeed]
  rfl

end FgRun

/-! ### One read, one chunk -/

/-- Lines 2 to 6 of `read_character` take the oldest byte (44_byte_stream R135). -/
theorem FgRuns.run_readCharacter {l : List Line} {s : State} (hs : FgRuns l s) (hk : s.kfg = .read2) :
    Host.Core.run core 5 s = .next { s with
      rd := (s.rd + 1) % s.cfg.rxCap, occ := s.occ - 1, gie := true,
      returned := s.returned ++ [s.rxbuf.getD s.rd 0], kfg := .idle, feed := l } := by
  have h2 : fgStep s = fgRead2 s := by simp only [fgStep, hk]
  have s3 := hs.moved h2
  have s4 := s3.moved rfl
  have s5 := s4.moved rfl
  have s6 := s5.moved rfl
  rw [hs.run_succ h2 nofun, s3.run_succ rfl nofun, s4.run_succ rfl nofun, s5.run_succ rfl nofun,
    run_succ_of_step (s6.step_eq rfl)]
  rfl

/-- The oldest byte stands under RD, and taking it leaves the others (44_byte_stream R135). -/
theorem ringBytes_eq_cons {s : State} (hs : RingOk s) (hne : s.occ ≠ 0) :
    ringBytes s = s.rxbuf.getD s.rd 0 :: ringBytes { s with rd := (s.rd + 1) % s.cfg.rxCap, occ := s.occ - 1 } := by
  obtain ⟨-, -, -, -, hrd, -, -⟩ := hs
  have h0 : s.occ.toNat ≠ 0 := fun h => hne (BitVec.eq_of_toNat_eq h)
  have hocc : s.occ.toNat = (s.occ - 1).toNat + 1 := by
    rw [BitVec.toNat_sub_of_le (by simp [BitVec.le_def]; omega)]
    simp
    omega
  have hnext (i : Nat) : (s.rd + (i + 1)) % s.cfg.rxCap = ((s.rd + 1) % s.cfg.rxCap + i) % s.cfg.rxCap := by
    rw [Nat.mod_add_mod, Nat.add_right_comm, Nat.add_assoc]
  rw [ringBytes, hocc, List.range_succ_eq_map, List.map_cons, List.map_map, Nat.add_zero, Nat.mod_eq_of_lt hrd]
  exact congrArg (_ :: ·) (List.map_congr_left fun i _ => congrArg (s.rxbuf.getD · 0) (hnext i))

theorem occ_ne_zero_of_ringBytes {s : State} (h : ringBytes s ≠ []) : s.occ ≠ 0 := fun h0 =>
  h (by simp [ringBytes, h0])

/-- Settles O29: whichever form the call has, it leaves FG at line 2 with FG.RUN to come. -/
theorem readCharacterReturnsTheOldestByte : Obligations.ReadCharacterReturnsTheOldestByte := by
  intro s b bs l h hfault hirq hring hbytes hfeed
  have hne : s.occ ≠ 0 := occ_ne_zero_of_ringBytes (by simp [hbytes])
  obtain ⟨hb, hbs⟩ : s.rxbuf.getD s.rd 0 = b ∧ _ = bs := List.cons.inj ((ringBytes_eq_cons hring hne).symm.trans hbytes)
  obtain ⟨hinisr, hready, hkfg⟩ := id h
  have hcall (f : List Line) :
      execReadCharacter { s with feed := f } = .next { s with kfg := .read2, feed := f } :=
    (fgCall_read1 (s := { s with feed := f }) h).trans (by rw [if_neg hne])
  have hfirst : step s = .next { s with kfg := .read2, feed := .fgRun :: l } := by
    rcases hfeed with hfeed | hfeed
    · have hstep := step_call (line := .fgRead) (l := l) (fun _ => rfl) hfault (hcall _) nofun
      rwa [← hfeed] at hstep
    · exact (step_word hfault hfeed rfl (lineRefusal_outside nofun rfl hinisr hready)).trans (hcall _)
  have hruns : FgRuns l { s with kfg := .read2, feed := .fgRun :: l } := ⟨hfault, hinisr, hirq, rfl⟩
  refine ⟨_, (run_succ_of_step hfirst 5).trans (hruns.run_readCharacter rfl), hbs, ?_⟩
  rw [← hb, ← hkfg]

theorem writeFrom_eq_idle_iff (src : List Byte) (off : Nat) : writeFrom src off = .idle ↔ ¬off < src.length := by
  unfold writeFrom
  split <;> simp [*]

/-- With the data-IN descriptor free FG arms the chunk (44_byte_stream R137, line 3). -/
theorem fgStep_write3_of_cpu {s : State} {src : List Byte} {off n : Nat} (hn : chunkLen src.length off = n)
    (hk : s.kfg = .write3 src off n) (ho : s.bdt.ep2In.own = .cpu) :
    fgStep s = .moved { s with
      ram := memWrite s.ram s.bdt.ep2In.adr (chunk src off n),
      bdt := { s.bdt with ep2In := inArmed s.bdt.ep2In n s.inTog.e2 },
      kfg := .write4 src off n } := by
  have hlen : (chunk src off n).length = n := by
    rw [← hn, chunk, List.length_take, List.length_drop]
    exact Nat.min_eq_left (Nat.min_le_left _ _)
  have hrun := armInRun_of_cpu (ep := Config.epData) (sl := .ep2In) (s.inTog.get Config.epData)
    (data := some (chunk src off n)) (len := n) ⟨hn ▸ chunkLen_le .., by simp⟩ rfl ho
  rw [armInDone_of_le hlen.ge, List.take_of_length_le hlen.le] at hrun
  simp only [fgStep, hk, fgWrite3, hrun]
  rfl

/-- Settles O30: the four numbered lines one after another, of which the last goes on to the next chunk or returns. -/
theorem writeStringArmsOneChunk : Obligations.WriteStringArmsOneChunk := by
  intro s src off l hfault hinisr hirq hk hoff hx ho hfeed n
  have hn : chunkLen src.length off = n := rfl
  clear_value n
  have s1 : FgRuns l s := ⟨hfault, hinisr, hirq, hfeed⟩
  have h1 : fgStep s = .moved { s with kfg := .write2 src off } := by simp only [fgStep, hk, fgWrite1, hx, if_true]
  have h2 : fgStep { s with kfg := .write2 src off }
      = .moved { s with txReady := false, kfg := .write3 src off n } := by rw [← hn]; rfl
  have h3 := fgStep_write3_of_cpu (s := { s with txReady := false, kfg := .write3 src off n }) hn rfl ho
  have s2 := s1.moved h1
  have s3 := s2.moved h2
  have s4 := s3.moved h3
  rw [s1.run_succ h1 nofun, s2.run_succ h2 nofun, s3.run_succ h3 nofun, run_succ_of_step (s4.step_eq rfl)]
  simp only [writeFrom_eq_idle_iff, ite_not]
  rfl

/-! ### The numbered lines (44_byte_stream R135, R137) -/

theorem fgOutcome_of_held {s : State} (h : fgStep s = .held) : fgOutcome s = .next s := by simp only [fgOutcome, h]

/-- An arming operation goes on from its hold in FG as the call does, which checks its arguments again
(40_bdt_arming R93). -/
theorem fgOutcome_arm {s : State} {a : ArmOp} (hk : s.kfg = .arm a) (ha : a.legal = true) (hinisr : s.inisr = false)
    (hready : s.isrReady = false) : fgOutcome s = execArm a { s with kfg := .idle } := by
  obtain ⟨sl, hs⟩ := ArmOp.slot_of_legal ha
  have hargs := ArmOp.argsOk_of_legal ha
  have hfree : FgFree { s with kfg := .idle } := ⟨hinisr, hready, rfl⟩
  cases ho : (s.bd sl).own with
  | cpu =>
    have hrun := ArmOp.run_of_cpu hargs hs ho
    rw [execArm_fg_of_cpu hfree hargs hs (by rwa [State.bd_kfg]), ArmOp.after_withKfg]
    exact fgOutcome_of_moved (by simp only [fgStep, hk, fgArm, hrun])
  | sie =>
    have hrun := ArmOp.run_of_sie hargs hs ho
    rw [execArm_fg_of_sie hfree hargs hs (by rwa [State.bd_kfg])]
    have hheld : fgStep s = .held := by simp only [fgStep, hk, fgArm, hrun]
    rw [fgOutcome_of_held hheld]
    exact congrArg (fun k => Host.Outcome.next { s with kfg := k }) hk

section Lines

variable {s : State} (hfault : s.fault = none) (hfeed : s.feed = []) (hinisr : s.inisr = false)
  (hready : s.isrReady = false)
include hfault hfeed hinisr hready

/-- With no program line left, outside the ISR and with no entry due, the step is FG's (60_exceptions R167). -/
theorem step_eq_fgOutcome : step s = fgOutcome s := by
  rw [step_nil hfault hfeed, procStep_outside hinisr hready]

theorem step_of_moved {k : KFg} {t : State} (hk : s.kfg = k) (h : fgStep { s with kfg := k } = .moved t) :
    step s = .next t := by
  subst hk
  exact (step_eq_fgOutcome hfault hfeed hinisr hready).trans (fgOutcome_of_moved h)

theorem step_of_held {k : KFg} (hk : s.kfg = k) (h : fgStep { s with kfg := k } = .held) : step s = .next s := by
  subst hk
  exact (step_eq_fgOutcome hfault hfeed hinisr hready).trans (fgOutcome_of_held h)

theorem step_read1 (hk : s.kfg = .read1) : step s = .next (if s.occ = 0 then s else { s with kfg := .read2 }) := by
  by_cases ho : s.occ = 0
  · rw [if_pos ho]
    exact step_of_held hfault hfeed hinisr hready hk (if_pos ho)
  · rw [if_neg ho]
    exact step_of_moved hfault hfeed hinisr hready hk (if_neg ho)

theorem step_read2 {v : Byte} (hk : s.kfg = .read2) (hv : s.rxbuf[s.rd]? = some v) :
    step s = .next { s with kfg := .read3 v } := by
  have hget : s.rxbuf.getD s.rd 0 = v := by rw [List.getD_eq_getElem?_getD, hv, Option.getD_some]
  rw [← hget]
  exact step_of_moved hfault hfeed hinisr hready hk rfl

theorem step_write1 {src : List Byte} {off : Nat} (hk : s.kfg = .write1 src off) :
    step s = .next (if s.txReady then { s with kfg := .write2 src off } else s) := by
  by_cases hx : s.txReady = true
  · rw [if_pos hx]
    exact step_of_moved hfault hfeed hinisr hready hk (if_pos hx)
  · rw [if_neg hx]
    exact step_of_held hfault hfeed hinisr hready hk (if_neg hx)

/-- The chunk's arm holds while the SIE owns the data-IN descriptor (40_bdt_arming R90). -/
theorem step_write3_of_sie {src : List Byte} {off n : Nat} (hk : s.kfg = .write3 src off n)
    (ho : s.bdt.ep2In.own = .sie) (hn : n ≤ 64) : step s = .next s := by
  have hheld := armInRun_of_sie (ep := Config.epData) (sl := .ep2In) (data := some (chunk src off n)) (len := n)
    (s.inTog.get Config.epData) ⟨hn, by simp⟩ rfl ho
  exact (step_eq_fgOutcome hfault hfeed hinisr hready).trans
    (fgOutcome_of_held (by simp only [fgStep, hk, fgWrite3, hheld]))

theorem step_arm {a : ArmOp} (hk : s.kfg = .arm a) (ha : a.legal = true) :
    step s = execArm a { s with kfg := .idle } :=
  (step_eq_fgOutcome hfault hfeed hinisr hready).trans (fgOutcome_arm hk ha hinisr hready)

end Lines

/-- Settles O28: the calls, their lines, FG.RUN at the two holds, and the numbered lines in the order of KFG. -/
theorem foregroundCallsAndLines : Obligations.ForegroundCallsAndLines := by
  refine ⟨fun b src s h => ?_, fun b src l s h hfault => ?_, fun l s hfault hinisr hready hfeed => ?_,
    fun s hfault hfeed hinisr hready => ?_⟩
  · exact ⟨fgCall_read1 h, execWriteString_of_ne_nil h, execWriteString_nil h, fgCall_write1 h [b] 0⟩
  · have hfree (f : List Line) : FgFree { s with feed := f } := h
    obtain ⟨-, -, hkfg⟩ := id h
    have hread : (if s.occ = 0 then KFg.read1 else .read2) ≠ .idle := by split <;> exact nofun
    have hwrite (src : List Byte) : (if s.txReady then KFg.write2 src 0 else .write1 src 0) ≠ .idle := by
      split <;> exact nofun
    refine ⟨step_call (fun _ => rfl) hfault (fgCall_read1 (hfree _)) hread,
      fun hne => step_call (fun _ => rfl) hfault (execWriteString_of_ne_nil (hfree _) hne) (hwrite src), ?_,
      step_call (fun _ => rfl) hfault (fgCall_write1 (hfree _) [b] 0) (hwrite [b])⟩
    rw [step_line (s := { s with feed := .fgWrite [] :: l }) hfault rfl]
    exact fgCallLine_next.mpr ⟨_, execWriteString_nil (hfree _), by rw [if_pos hkfg]; rfl⟩
  · have holds := step_fgRun_of_held hfault hinisr hready hfeed
    exact ⟨fun hk ho => holds (by simp [hk]) (by simp only [fgStep, hk, fgRead1, if_pos ho]),
      fun src off hk hx => holds (by simp [hk]) (by simp [fgStep, hk, fgWrite1, hx])⟩
  · have moves {k : KFg} {t : State} (hk : s.kfg = k) (h : fgStep { s with kfg := k } = .moved t) : step s = .next t :=
      step_of_moved hfault hfeed hinisr hready hk h
    have arms {a : ArmOp} (hk : s.kfg = .arm a) (ha : a.legal = true) : step s = execArm a { s with kfg := .idle } :=
      step_arm hfault hfeed hinisr hready hk ha
    refine ⟨fun hk => step_of_held hfault hfeed hinisr hready hk rfl, step_read1 hfault hfeed hinisr hready,
      fun _ => step_read2 hfault hfeed hinisr hready, fun v hk => moves hk rfl, fun v hk => moves hk rfl,
      fun v hk => moves hk rfl, fun v hk => moves hk rfl, fun _ _ => step_write1 hfault hfeed hinisr hready,
      fun src off hk => moves hk rfl, fun _ _ _ => step_write3_of_sie hfault hfeed hinisr hready,
      fun src off n hk => moves hk rfl, fun ep t hk hdir => arms hk ((slotOf_isSome ep .out).trans hdir),
      fun ep data n t hk ha => ?_, fun ep hk hdir => arms hk ((slotOf_isSome ep .inn).trans hdir)⟩
    have hn : (BitVec.ofNat 16 n).toNat = n := by
      obtain ⟨hle, -⟩ := ArmOp.argsOk_of_legal ha
      rw [BitVec.toNat_ofNat, Nat.mod_eq_of_lt (Nat.lt_of_le_of_lt hle (by decide))]
    show _ = execArm (.armIn ep data (BitVec.ofNat 16 n).toNat t) _
    rw [hn]
    exact arms hk ha

end Sys2Proof.Machine

namespace Sys2Proof.Machine

open Sys2Proof.Spec0

/-! ## The BUS agent (45_sie_bus_agent R144 to R157) -/

@[simp] theorem receive_answers (sl : Slot) (c : Completion) (pid : BitVec 4) (d : List Byte) (s : State) :
    (receive sl c pid d s).answers = s.answers := by rw [receive_eq]

@[simp] theorem transmit_answers (sl : Slot) (c : Completion) (s : State) :
    (transmit sl c s).answers = s.answers := by rw [transmit_eq]

/-- An enabled direction has its descriptor (10_state R20, R27). -/
theorem exists_slotOf {ep : BitVec 4} {dir : Dir} (h : dirEnabled ep dir = true) : ∃ sl, slotOf ep dir = some sl :=
  Option.isSome_iff_exists.mp ((slotOf_isSome ep dir).trans h)

/-! ### SETUP tokens (45_sie_bus_agent R145, R147, R148) -/

section Setup

variable {a : BitVec 7} {ep : BitVec 4} {p : SetupPkt} {s : State}

/-- A SETUP that fails any of the conditions to be accepted changes nothing. -/
theorem exec_busSetup_ignored (h : ¬(a = s.addr ∧ ep = 0 ∧ s.pktdis = false ∧ s.bdt.ep0Out.own = .sie
    ∧ s.ustatq.length < s.cfg.ustatDepth)) : exec (.busSetup a ep p) s = .next (s.answer .none) := by
  rcases execBusSetup_cases a ep p s with heq | ⟨ha, hep, hp, ho, hq, -⟩
  · exact heq
  · exact absurd ⟨ha, hep, hp, ho, hq⟩ h

theorem exec_busSetup_accepted (hp : s.pktdis = false) (ho : s.bdt.ep0Out.own = .sie)
    (hq : s.ustatq.length < s.cfg.ustatDepth) :
    exec (.busSetup s.addr 0 p) s
      = .next ({ receive .ep0Out ⟨0, .out⟩ Pid.setup p.bytes s with pktdis := true }.answer .ack) := by
  show execBusSetup s.addr 0 p s = _
  simp [execBusSetup, busSetupStep, hp, State.bd, ho, queueFull_eq_false.mpr hq]

end Setup

/-! ### OUT tokens (45_sie_bus_agent R145, R149, R150) -/

section Out

variable {a : BitVec 7} {ep : BitVec 4} {t : Bool} {d : List Byte} {sl : Slot} {s : State}

theorem exec_busOut_of_addr_ne (h : a ≠ s.addr) : exec (.busOut a ep t d) s = .next (s.answer .none) := if_neg h

theorem exec_busOut_of_disabled (h : dirEnabled ep .out = false) :
    exec (.busOut a ep t d) s = .next (s.answer .none) := by
  show execBusOut a ep t d s = _
  simp [execBusOut, slotOf_eq_none h]

theorem exec_busOut_of_pktdis (hs : slotOf ep .out = some sl) (hp : s.pktdis = true) :
    exec (.busOut s.addr ep t d) s = .next (s.answer .nak) := by
  show execBusOut s.addr ep t d s = _
  simp [execBusOut, hs, hp]

theorem exec_busOut_of_slot (hs : slotOf ep .out = some sl) (hp : s.pktdis = false) :
    exec (.busOut s.addr ep t d) s = .next (busOutStep ep sl t d s) := by
  show execBusOut s.addr ep t d s = _
  simp [execBusOut, hs, hp]

theorem busOutStep_of_cpu (ho : (s.bd sl).own = .cpu) : busOutStep ep sl t d s = s.answer .nak := by
  simp [busOutStep, ho]

theorem busOutStep_of_stall (ho : (s.bd sl).own = .sie) (hst : (s.bd sl).stall = true) :
    busOutStep ep sl t d s = (stallHandshake ep s).answer .stall := by
  simp [busOutStep, ho, hst]

theorem busOutStep_of_otherToggle (ho : (s.bd sl).own = .sie) (hst : (s.bd sl).stall = false)
    (hc : s.cfg.toggleCheck = true) (ht : t ≠ (s.bd sl).dts) : busOutStep ep sl t d s = s.answer .ack := by
  simp [busOutStep, ho, hst, hc, ht]

/-- An OUT packet that would complete: whether it does is a matter of the room in USTATQ. -/
theorem busOutStep_of_toggleOk (ho : (s.bd sl).own = .sie) (hst : (s.bd sl).stall = false)
    (ht : ¬(s.cfg.toggleCheck = true ∧ t ≠ (s.bd sl).dts)) :
    busOutStep ep sl t d s
      = if s.queueFull then s.answer .nak else (receive sl ⟨ep, .out⟩ Pid.out d s).answer .ack := by
  have htog : ¬(s.cfg.toggleCheck && t != (s.bd sl).dts) = true := by simpa using ht
  simp only [busOutStep, ho, hst, if_neg htog]
  rfl

end Out

/-! ### IN tokens (45_sie_bus_agent R145, R151 to R153) -/

section In

variable {a : BitVec 7} {ep : BitVec 4} {sl : Slot} {s : State}

theorem exec_busIn_of_addr_ne (h : a ≠ s.addr) : exec (.busIn a ep) s = .next (s.answer .none) := if_neg h

theorem exec_busIn_of_disabled (h : dirEnabled ep .inn = false) : exec (.busIn a ep) s = .next (s.answer .none) := by
  show execBusIn a ep s = _
  simp [execBusIn, slotOf_eq_none h]

theorem exec_busIn_of_pktdis (hs : slotOf ep .inn = some sl) (hp : s.pktdis = true) :
    exec (.busIn s.addr ep) s = .next (s.answer .nak) := by
  show execBusIn s.addr ep s = _
  simp [execBusIn, hs, hp]

theorem exec_busIn_of_slot (hs : slotOf ep .inn = some sl) (hp : s.pktdis = false) :
    exec (.busIn s.addr ep) s = .next (busInStep ep sl s) := by
  show execBusIn s.addr ep s = _
  simp [execBusIn, hs, hp]

theorem busInStep_of_cpu (ho : (s.bd sl).own = .cpu) : busInStep ep sl s = s.answer .nak := by
  simp [busInStep, ho]

theorem busInStep_of_stall (ho : (s.bd sl).own = .sie) (hst : (s.bd sl).stall = true) :
    busInStep ep sl s = (stallHandshake ep s).answer .stall := by
  simp [busInStep, ho, hst]

/-- An IN token for an armed packet: whether it completes is a matter of the room in USTATQ. -/
theorem busInStep_of_armed (ho : (s.bd sl).own = .sie) (hst : (s.bd sl).stall = false) :
    busInStep ep sl s
      = if s.queueFull then s.answer .nak
        else (transmit sl ⟨ep, .inn⟩ s).answer (.data (s.bd sl).dts (memRead s.ram (s.bd sl).adr (s.bd sl).cnt)) := by
  simp [busInStep, ho, hst]

end In

/-! ### The filters and the three tokens -/

/-- Settles O32, filter by filter, each for the three tokens. -/
theorem tokenFilters : Obligations.TokenFilters := by
  intro a ep t p d s
  refine ⟨fun h => ⟨exec_busSetup_ignored (by simp [h]), exec_busOut_of_addr_ne h, exec_busIn_of_addr_ne h⟩, ?_, ?_, ?_⟩
  · rintro -
    refine ⟨fun h => ⟨exec_busSetup_ignored ?_, exec_busOut_of_disabled h⟩, exec_busIn_of_disabled⟩
    rintro ⟨-, rfl, -⟩
    exact absurd h (by decide)
  · rintro rfl hp
    refine ⟨exec_busSetup_ignored (by simp [hp]), fun h => ?_, fun h => ?_⟩
    · obtain ⟨sl, hs⟩ := exists_slotOf h
      exact exec_busOut_of_pktdis hs hp
    · obtain ⟨sl, hs⟩ := exists_slotOf h
      exact exec_busIn_of_pktdis hs hp
  · rintro rfl hp hfull
    have hq : s.queueFull = true := decide_eq_true hfull
    refine ⟨exec_busSetup_ignored (by simp [hfull]), fun sl hs ho hst ht => ?_, fun sl hs ho hst => ?_⟩
    · rw [exec_busOut_of_slot hs hp, busOutStep_of_toggleOk ho hst ht, if_pos hq]
    · rw [exec_busIn_of_slot hs hp, busInStep_of_armed ho hst, if_pos hq]

/-- Settles O33: the conditions together accept the packet, and each one that fails has it ignored. -/
theorem setupIsAcceptedOrIgnored : Obligations.SetupIsAcceptedOrIgnored := by
  rintro a ep p s rfl
  exact ⟨fun hp hq ho => exec_busSetup_accepted hp ho hq, fun hne => exec_busSetup_ignored fun ⟨_, hep, _⟩ => hne hep,
    fun ho => exec_busSetup_ignored (by simp [ho])⟩

/-- Settles O34: the token comes to its descriptor, and the branches there. -/
theorem outPacketIsReceivedOrTurnedAway : Obligations.OutPacketIsReceivedOrTurnedAway := by
  intro ep t d sl s hs hp hq
  have hroom : ¬s.queueFull = true := by simp [queueFull_eq_false.mpr hq]
  rw [exec_busOut_of_slot hs hp]
  refine ⟨fun ho hst ht => ?_, fun ho hst hc ht => ?_, fun ho => ?_, fun ho hst => ?_⟩
  · rw [busOutStep_of_toggleOk ho hst ht, if_neg hroom, State.answer, receive_answers]; rfl
  · rw [busOutStep_of_otherToggle ho hst hc ht]
  · rw [busOutStep_of_cpu ho]
  · rw [busOutStep_of_stall ho hst]; rfl

/-- Settles O35: the token comes to its descriptor, and the branches there. -/
theorem inTokenIsAnswered : Obligations.InTokenIsAnswered := by
  intro ep sl s hs hp
  rw [exec_busIn_of_slot hs hp]
  refine ⟨fun ho hst hq => ?_, fun ho hst => ?_, fun ho => ?_⟩
  · have hroom : ¬s.queueFull = true := by simp [queueFull_eq_false.mpr hq]
    rw [busInStep_of_armed ho hst, if_neg hroom, State.answer, transmit_answers]; rfl
  · rw [busInStep_of_stall ho hst]; rfl
  · rw [busInStep_of_cpu ho]

/-! ### Resets and errors (45_sie_bus_agent R146, R154) -/

theorem errKind_mask_eq_twoPow (k : ErrKind) : ErrKind.mask k = BitVec.twoPow 8 k.bit := by cases k <;> rfl

theorem errKind_bit_lt (k : ErrKind) : k.bit < 8 := by cases k <;> decide

theorem errKind_mask_getLsbD (k : ErrKind) (n : Nat) : (ErrKind.mask k).getLsbD n = (n == k.bit) := by
  rw [errKind_mask_eq_twoPow, BitVec.getLsbD_twoPow, Bool.eq_iff_iff]
  simpa [errKind_bit_lt k] using eq_comm

/-- Settles O36: the two updates, and the bit that the mask of an error kind has. -/
theorem busResetAndErrorSetTheirFlags : Obligations.BusResetAndErrorSetTheirFlags := by
  refine fun s => ⟨rfl, fun k => ⟨_, rfl, rfl, fun n _ => ?_⟩⟩
  show (s.ueir ||| ErrKind.mask k).getLsbD n = _
  rw [BitVec.getLsbD_or, errKind_mask_getLsbD]

/-! ### Every bus event -/

theorem exec_busev8_next {i : Instr} (hf : i.format = .busev8) (s : State) : ∃ t, exec i s = .next t := by
  cases i
  case busSetup a ep p =>
    rcases execBusSetup_cases a ep p s with heq | ⟨-, -, -, -, -, heq⟩ <;> exact ⟨_, heq⟩
  case busOut a ep t d =>
    rcases execBusOut_cases a ep t d s with ⟨_, -, heq⟩ | ⟨_, -, -, -, -, heq⟩ | ⟨_, -, -, -, -, -, heq⟩ <;>
      exact ⟨_, heq⟩
  case busIn a ep =>
    rcases execBusIn_cases a ep s with ⟨_, -, heq⟩ | ⟨_, -, -, -, -, heq⟩ | ⟨_, -, -, -, -, -, heq⟩ <;> exact ⟨_, heq⟩
  case busReset => exact ⟨_, rfl⟩
  case busError k => exact ⟨_, rfl⟩
  all_goals cases hf

theorem BusRan.frame {i : Instr} {s t : State} (h : BusRan i s t) :
    t = { s with
      ram := t.ram, bdt := t.bdt, addr := t.addr, rstf := t.rstf, stallf := t.stallf, ueir := t.ueir,
      ustatq := t.ustatq, pktdis := t.pktdis, epStall := t.epStall, answers := t.answers } := by
  cases h with
  | setup => rw [receive_eq]; rfl
  | received => rw [receive_eq]; rfl
  | sent => rw [transmit_eq]; rfl
  | _ => rfl

theorem BusRan.answers {i : Instr} {s t : State} (h : BusRan i s t) : ∃ a, t.answers = s.answers ++ [a] := by
  cases h with
  | received => exact ⟨.ack, congrArg (· ++ [Answer.ack]) (receive_answers ..)⟩
  | sent r => exact ⟨r, congrArg (· ++ [r]) (transmit_answers ..)⟩
  | _ => exact ⟨_, rfl⟩

theorem BusRan.ustatq {i : Instr} {s t : State} (h : BusRan i s t) :
    t.ustatq = s.ustatq ∨ ∃ c, t.ustatq = s.ustatq ++ [c] := by
  cases h with
  | setup => exact .inr ⟨_, rfl⟩
  | received => exact .inr ⟨_, rfl⟩
  | sent => exact .inr ⟨_, rfl⟩
  | _ => exact .inl rfl

/-- Packet processing disabled keeps every token from the descriptors: it is answered, and that is all (10_state R35,
45_sie_bus_agent R145). -/
theorem exec_busev8_of_pktdis {i : Instr} {s t : State} (hf : i.format = .busev8) (hp : s.pktdis = true)
    (h : exec i s = .next t) : t = { s with addr := t.addr, rstf := t.rstf, ueir := t.ueir, answers := t.answers } := by
  have hon : ¬s.pktdis = false := by simp [hp]
  have answered {r : Answer} (heq : exec i s = .next (s.answer r)) :
      t = { s with addr := t.addr, rstf := t.rstf, ueir := t.ueir, answers := t.answers } := by
    cases heq.symm.trans h
    rfl
  cases i
  case busSetup => exact answered (exec_busSetup_ignored (by simp [hp]))
  case busOut a ep t' d =>
    rcases execBusOut_cases a ep t' d s with ⟨_, -, heq⟩ | ⟨_, -, -, -, hoff, -⟩ | ⟨_, -, -, -, hoff, -⟩
    · exact answered heq
    · exact absurd hoff hon
    · exact absurd hoff hon
  case busIn a ep =>
    rcases execBusIn_cases a ep s with ⟨_, -, heq⟩ | ⟨_, -, -, -, hoff, -⟩ | ⟨_, -, -, -, hoff, -⟩
    · exact answered heq
    · exact absurd hoff hon
    · exact absurd hoff hon
  case busReset => cases h; rfl
  case busError k => cases h; rfl
  all_goals cases hf

/-- Settles O37: the event completes with one of the effects of `BusRan`, and with no effect on packets under PKTDIS. -/
theorem busEventsCompleteAndSpareTheEngine : Obligations.BusEventsCompleteAndSpareTheEngine := by
  intro i s hf
  obtain ⟨t, h⟩ := exec_busev8_next hf s
  have hran := busRan_of_exec hf h
  obtain ⟨a, ha⟩ := hran.answers
  refine ⟨t, a, h, ha, hran.frame, hran.ustatq, fun hp => ?_⟩
  rw [exec_busev8_of_pktdis hf hp h]
  exact ⟨hp, rfl, rfl, rfl⟩

end Sys2Proof.Machine

namespace Sys2Proof.Machine

open Sys2Proof.Spec0

/-! ## Faults and refusals (60_exceptions R158 to R164) -/

/-! ### A step answers a fault only where FAULT is set (60_exceptions R158; log entry 8) -/

/-- A fault is recorded in the next state, never answered (log entry 8). -/
def NoFaultAnswer (o : Host.Outcome State Fault Refusal) : Prop := ∀ c, o ≠ .fault c

section Answers

variable {s : State}

theorem noFaultAnswer_next (t : State) : NoFaultAnswer (.next t) := nofun

theorem noFaultAnswer_refused (r : Refusal) : NoFaultAnswer (.refused r) := nofun

theorem NoFaultAnswer.ite {p : Prop} [Decidable p] {o o' : Host.Outcome State Fault Refusal} (h : NoFaultAnswer o)
    (h' : NoFaultAnswer o') : NoFaultAnswer (if p then o else o') := by split <;> assumption

theorem noFaultAnswer_runPlan (b : State) (p : Plan) (rest : List IsrOp) : NoFaultAnswer (runPlan b p rest) := by
  cases p <;> exact noFaultAnswer_next _

theorem noFaultAnswer_isrInvoke (plan : State → Plan) : NoFaultAnswer (isrInvoke plan s) := by
  unfold isrInvoke
  split
  · exact noFaultAnswer_refused _
  · exact noFaultAnswer_runPlan _ _ _

theorem noFaultAnswer_isrRow (plan : State → Plan) : NoFaultAnswer (isrRow plan s) := by
  unfold isrRow
  split
  · exact noFaultAnswer_runPlan _ _ _
  · exact noFaultAnswer_isrInvoke plan

theorem noFaultAnswer_isrResume : NoFaultAnswer (isrResume s) := by
  unfold isrResume
  split
  · exact noFaultAnswer_next s
  · exact noFaultAnswer_runPlan _ _ _

theorem noFaultAnswer_fgOutcome : NoFaultAnswer (fgOutcome s) := by
  unfold fgOutcome
  split <;> exact noFaultAnswer_next _

theorem noFaultAnswer_fgCall (k : KFg) : NoFaultAnswer (fgCall k s) := by
  refine .ite (noFaultAnswer_refused _) (.ite (noFaultAnswer_refused _) (.ite ?_ (noFaultAnswer_refused _)))
  split <;> exact noFaultAnswer_next _

theorem noFaultAnswer_execArm (a : ArmOp) : NoFaultAnswer (execArm a s) :=
  .ite (noFaultAnswer_isrRow _) (noFaultAnswer_fgCall _)

theorem noFaultAnswer_exec (i : Instr) : NoFaultAnswer (exec i s) := by
  cases hf : i.format with
  | setup64 => rw [exec_setup64 hf]; exact noFaultAnswer_isrRow _
  | outdone8 => rw [exec_outdone8 hf]; exact noFaultAnswer_isrRow _
  | pid4 => rw [exec_pid4 hf]; exact noFaultAnswer_isrRow _
  | irq16 => rw [exec_irq16 hf]; exact noFaultAnswer_isrInvoke _
  | classreq8 => rw [exec_classreq8 hf]; exact noFaultAnswer_next _
  | busev8 =>
    obtain ⟨t, ht⟩ := exec_busev8_next hf s
    rw [ht]
    exact noFaultAnswer_next t
  | call8 =>
    cases i
    case init => exact .ite (noFaultAnswer_next _) (noFaultAnswer_refused _)
    case readCharacter | writeCharacter | writeString => exact noFaultAnswer_fgCall _
    case armOut | armIn | stallIn => exact noFaultAnswer_execArm _
    case rxCallback | txDoneCallback => exact noFaultAnswer_isrRow _
    all_goals cases hf

theorem noFaultAnswer_isrEnter : NoFaultAnswer (isrEnter s) := by
  unfold isrEnter
  split
  · exact noFaultAnswer_exec _
  · exact noFaultAnswer_refused _

theorem noFaultAnswer_isrEnterAtom : NoFaultAnswer (isrEnterAtom s) := by
  unfold isrEnterAtom segmentPlan
  split
  · split <;> exact noFaultAnswer_next _
  · exact noFaultAnswer_refused _

theorem noFaultAnswer_procStep : NoFaultAnswer (procStep s) :=
  .ite noFaultAnswer_isrEnter (.ite noFaultAnswer_isrResume noFaultAnswer_fgOutcome)

theorem noFaultAnswer_procAtom : NoFaultAnswer (procAtom s) :=
  .ite noFaultAnswer_isrEnterAtom (.ite (noFaultAnswer_next _) noFaultAnswer_fgOutcome)

theorem noFaultAnswer_wordLine (f : Format) (bs : List Byte) : NoFaultAnswer (wordLine f bs s) := by
  unfold wordLine
  split
  · exact noFaultAnswer_refused _
  split
  · exact noFaultAnswer_refused _
  · exact noFaultAnswer_exec _

theorem noFaultAnswer_fgCallLine {call : State → Host.Outcome State Fault Refusal} (h : NoFaultAnswer (call s))
    (rest : List Line) : NoFaultAnswer (fgCallLine call rest s) := by
  unfold fgCallLine
  split
  · exact noFaultAnswer_next _
  · next hc => exact absurd hc (h _)
  · exact noFaultAnswer_refused _

theorem noFaultAnswer_fgRunLine (rest : List Line) : NoFaultAnswer (fgRunLine rest s) := by
  refine .ite (noFaultAnswer_refused _) (.ite (noFaultAnswer_refused _) (.ite (noFaultAnswer_refused _) ?_))
  split
  · exact .ite (noFaultAnswer_next _) (noFaultAnswer_next _)
  · exact noFaultAnswer_next _
  · exact noFaultAnswer_next _

theorem noFaultAnswer_lineStep (line : Line) (rest : List Line) : NoFaultAnswer (lineStep line rest s) := by
  cases line with
  | word f bs => exact noFaultAnswer_wordLine f bs
  | isr => exact .ite noFaultAnswer_isrEnter (noFaultAnswer_refused _)
  | isrStar => exact .ite noFaultAnswer_isrEnter (noFaultAnswer_next _)
  | isrRun => exact .ite noFaultAnswer_isrResume (noFaultAnswer_refused _)
  | fgRead | fgWrite | fgPutc => exact noFaultAnswer_fgCallLine (noFaultAnswer_fgCall _) rest
  | fgRun => exact noFaultAnswer_fgRunLine rest
  | proc => exact noFaultAnswer_procAtom

theorem noFaultAnswer_step (hfault : s.fault = none) : NoFaultAnswer (step s) := by
  cases hfeed : s.feed with
  | nil => rw [step_nil hfault hfeed]; exact noFaultAnswer_procStep
  | cons line rest => rw [step_line hfault hfeed]; exact noFaultAnswer_lineStep line rest

end Answers

/-! ### The states in which nothing left to do raises a fault (60_exceptions R164) -/

/-- What `NoFaultOk` asks of a state, the program aside. -/
def Legal (s : State) : Prop :=
  s.fault = none ∧ s.kfg.legal = true ∧ s.kisr.ops.all IsrOp.legal = true
    ∧ ∀ c ∈ s.ustatq, c.dir = .out → (slotOf c.ep .out).isSome = true

theorem noFaultOk_iff {s : State} : NoFaultOk s ↔ PublicFeed s ∧ Legal s :=
  ⟨fun ⟨hfault, hfeed, h⟩ => ⟨hfeed, hfault, h⟩, fun ⟨hfeed, hfault, h⟩ => ⟨hfault, hfeed, h⟩⟩

theorem Legal.withKfg {s : State} (h : Legal s) {k : KFg} (hk : k.legal = true) : Legal { s with kfg := k } := by
  obtain ⟨hfault, -, hkisr, hq⟩ := h
  exact ⟨hfault, hk, hkisr, hq⟩

theorem Legal.withKisr {s : State} (h : Legal s) (b : Bool) {k : KIsr} (hk : k.ops.all IsrOp.legal = true) :
    Legal { s with inisr := b, kisr := k } := by
  obtain ⟨hfault, hkfg, -, hq⟩ := h
  exact ⟨hfault, hkfg, hk, hq⟩

/-- A completion joins the queue where it names a descriptor, or is of the IN direction. -/
theorem Legal.enqueue {s : State} (h : Legal s) {c : Completion}
    (hc : c.dir = .out → (slotOf c.ep .out).isSome = true) : Legal { s with ustatq := s.ustatq ++ [c] } := by
  obtain ⟨hfault, hkfg, hkisr, hq⟩ := h
  refine ⟨hfault, hkfg, hkisr, fun d hd => ?_⟩
  rcases List.mem_append.mp hd with hd | hd
  · exact hq d hd
  · exact List.mem_singleton.mp hd ▸ hc

theorem Legal.dequeue {s : State} (h : Legal s) : Legal { s with ustatq := s.ustatq.tail } := by
  obtain ⟨hfault, hkfg, hkisr, hq⟩ := h
  exact ⟨hfault, hkfg, hkisr, fun c hc => hq c (List.mem_of_mem_tail hc)⟩

theorem Legal.armed {a : ArmOp} {s u : State} (h : Legal s) (hr : a.run s = .done u) : Legal u := by
  rw [ArmOp.run_eq hr]
  exact h

/-! ### Bus events -/

/-- A bus event records a completion of an existing descriptor alone (45_sie_bus_agent R147, R149, R151). -/
theorem busKept_legal : BusKept Legal where
  received s ep sl pid d hsl _ _ _ h := by
    rw [receive_eq]
    exact h.enqueue (c := ⟨ep, .out⟩) fun _ => by rw [hsl]; rfl
  transmitted s ep sl _ _ _ h := by
    rw [transmit_eq]
    exact h.enqueue (c := ⟨ep, .inn⟩) nofun

/-! ### The ISR -/

/-- Operations that raise no fault leave a state in which nothing does. -/
theorem drive_legal : ∀ {l : List IsrOp}, l.all IsrOp.legal = true → ∀ {b s : State}, Legal s → Legal (drive b l s)
  | [], _, _, _, hs => hs
  | .ret :: _, _, _, _, hs => hs.withKisr false rfl
  | .pktdisOff :: k, hl, _, s, hs => drive_legal (l := k) hl (s := { s with pktdis := false }) hs
  | .dequeue :: k, hl, _, _, hs => drive_legal (l := k) hl hs.dequeue
  | .arm a :: k, hl, b, s, hs => by
    obtain ⟨ha, hk⟩ := Bool.and_eq_true_iff.mp hl
    rcases ArmOp.run_of_legal ha s with ⟨sl, hr⟩ | hr
    · rw [drive_arm_done b k hr]
      exact drive_legal hk (hs.armed hr)
    · rw [drive_arm_hold b k hr]
      exact hs.withKisr true hl

theorem segment_legal : ∀ {l : List IsrOp}, l.all IsrOp.legal = true → ∀ {b s : State}, Legal s → Legal (segment b l s)
  | [], _, _, _, hs => hs
  | .ret :: _, _, _, _, hs => hs.withKisr false rfl
  | .pktdisOff :: k, hl, _, s, hs => segment_legal (l := k) hl (s := { s with pktdis := false }) hs
  | .dequeue :: k, hl, _, _, hs => segment_legal (l := k) hl hs.dequeue
  | .arm _ :: k, hl, b, _, hs => by
    obtain ⟨ha, -⟩ := Bool.and_eq_true_iff.mp hl
    rw [segment_arm b k (ArmOp.run_ne_raised ha _)]
    exact hs.withKisr true hl

/-- What is left of the invocation in progress raises no fault. -/
theorem Legal.ops {s : State} (h : Legal s) {k : List IsrOp} (hk : s.kisr = .active k) : k.all IsrOp.legal = true := by
  obtain ⟨-, -, hkisr, -⟩ := h
  rwa [hk] at hkisr

theorem isrResume_legal {s t : State} (hs : Legal s) (h : isrResume s = .next t) : Legal t := by
  cases hk : s.kisr with
  | inactive => simp only [isrResume, hk] at h; cases h; exact hs
  | active k =>
    rw [isrResume_of_active hk] at h
    cases h
    exact drive_legal (hs.ops hk) hs

theorem isrAtom_legal {s : State} (hs : Legal s) : Legal (isrAtom s) := by
  unfold isrAtom
  split
  · exact hs
  · next a k hk =>
    obtain ⟨ha, hl⟩ := Bool.and_eq_true_iff.mp (hs.ops hk)
    split
    · next hr => exact absurd hr (ArmOp.run_ne_raised ha s _)
    · next hr => exact segment_legal hl (hs.armed hr)
    · exact hs
  · next hk => exact segment_legal (hs.ops hk) hs

/-- A rule's own writes touch neither the continuations nor the queue. -/
theorem RowPlans.keeps_legal {i : Instr} {s s1 : State} {ops : List IsrOp} (h : RowPlans i s s1 ops) (hs : Legal s) :
    Legal s1 := by
  cases h with
  | receive => rw [rxStore_frame]; exact hs
  | _ => exact hs

theorem IrqPlans.keeps_legal {i : Instr} {s s1 : State} {ops : List IsrOp} (h : IrqPlans i s s1 ops) (hs : Legal s) :
    Legal s1 := by
  cases h with
  | release => rw [onStall_eq]; exact hs
  | inn => rcases inComplete_cases _ s with ⟨a, -, heq⟩ | ⟨-, -, heq⟩ | ⟨-, -, heq⟩ <;> rw [heq] <;> exact hs
  | out _ hrow => exact hrow.keeps_legal hs
  | reset | nothing => exact hs

theorem planTrnOut_error {ep : BitVec 4} {s : State} {c : Fault} (h : planTrnOut ep s = .error c) :
    slotOf ep .out = none := by
  cases hs : slotOf ep .out with
  | none => rfl
  | some sl =>
    obtain ⟨u, ops, hp, -⟩ := outDonePlan_plans (decodeOutDone_format ep (s.bd sl).pid) s
    rw [planTrnOut_of_ok hs hp] at h
    cases h

/-- A dispatcher row raises a fault only for the completion of a missing descriptor (10_state R20; log entry 22). -/
theorem irqPlan_error {i : Instr} (hf : i.format = .irq16) {s : State} {c : Fault} (h : irqPlan i s = .error c) :
    ∃ ep, Serves i .out ep ∧ slotOf ep .out = none := by
  cases i
  case dispatchReset | dispatchStall | dispatchTrnIn => cases h
  case dispatchTrnOut ep => exact ⟨ep, .inl rfl, planTrnOut_error h⟩
  case dispatchError stallf trnf dir ep =>
    cases stallf with
    | true => cases h
    | false =>
      cases trnf with
      | false => cases h
      | true =>
        cases dir with
        | inn => cases h
        | out => exact ⟨ep, .inr rfl, planTrnOut_error (s := { s with ueir := 0 }) h⟩
  all_goals cases hf

/-- The row of the flags plans operations that raise no fault: the completion at the head of USTATQ has its descriptor. -/
theorem irqPlan_legal {s : State} (hr : s.isrReady = true) (hs : Legal s) :
    ∃ s1 ops, irqPlan (irqRow s) s.enterIsr = .ok (s1, ops) ∧ (ops ++ [IsrOp.ret]).all IsrOp.legal = true
      ∧ Legal s1 := by
  have hf := irqRow_format s
  rcases irqPlan_cases hf s.enterIsr with ⟨c, hc⟩ | ⟨s0, s1, ops, he, heq, hp⟩
  · obtain ⟨ep, hserves, hnone⟩ := irqPlan_error hf hc
    obtain ⟨-, -, -, hq⟩ := hs
    have hsome := hq ⟨ep, .out⟩ (List.mem_of_head? (irqRow_serves hr hserves)) rfl
    rw [hnone] at hsome
    cases hsome
  · have hs0 : Legal s0 := by rcases he with rfl | rfl <;> exact hs.withKisr true rfl
    exact ⟨s1, ops, heq, legal_append_ret (hp.legal hf), hp.keeps_legal hs0⟩

theorem exec_irqRow_legal {s t : State} (hr : s.isrReady = true) (hs : Legal s) (h : exec (irqRow s) s = .next t) :
    Legal t := by
  obtain ⟨s1, ops, heq, hops, hs1⟩ := irqPlan_legal hr hs
  rw [exec_irq16 (irqRow_format s), isrInvoke_of_ready hr, heq] at h
  cases h
  exact drive_legal hops hs1

theorem isrEnterAtom_legal {s t : State} (hr : s.isrReady = true) (hs : Legal s) (h : isrEnterAtom s = .next t) :
    Legal t := by
  obtain ⟨s1, ops, heq, hops, hs1⟩ := irqPlan_legal hr hs
  simp only [isrEnterAtom, decode_irqRecord hr, heq, segmentPlan] at h
  cases h
  exact segment_legal hops hs1

/-! ### FG -/

theorem fgWrite3_ne_raised {n : Nat} (h : n ≤ Config.maxP) (src : List Byte) (off : Nat) (s : State) (c : Fault) :
    fgWrite3 src off n s ≠ .raised c := by
  have ha : (ArmOp.armIn Config.epData (some (chunk src off n)) n (s.inTog.get Config.epData)).legal = true := by
    simp [ArmOp.legal, h, show (slotOf Config.epData .inn).isSome = true from rfl]
  unfold fgWrite3
  split
  · exact nofun
  · exact nofun
  · next hr => exact absurd hr (ArmOp.run_ne_raised ha s _)

/-- FG raises a fault only in an arming operation, and its chunk fits a packet (44_byte_stream R137). -/
theorem fgStep_ne_raised {s : State} (h : s.kfg.legal = true) (c : Fault) : fgStep s ≠ .raised c := by
  unfold fgStep
  cases hk : s.kfg with
  | write3 src off n =>
    rw [hk] at h
    exact fgWrite3_ne_raised (of_decide_eq_true h) src off s c
  | arm a => rw [hk] at h; cases h
  | read1 => simp only [fgRead1]; split <;> exact nofun
  | write1 => simp only [fgWrite1]; split <;> exact nofun
  | _ => exact nofun

theorem writeFrom_legal (src : List Byte) (off : Nat) : (writeFrom src off).legal = true := by
  unfold writeFrom; split <;> rfl

theorem fgStep_legal {s t : State} (hs : Legal s) (h : fgStep s = .moved t) : Legal t := by
  cases fgMoves h with
  | write2 => exact hs.withKfg (k := .write3 _ _ _) (decide_eq_true (chunkLen_le _ _))
  | write3 _ hu => exact (hs.armed hu).withKfg rfl
  | write4 => exact hs.withKfg (writeFrom_legal _ _)
  | arm _ hu => exact (hs.armed hu).withKfg rfl
  | read1 => exact hs.withKfg (k := .read2) rfl
  | read2 => exact hs.withKfg (k := .read3 _) rfl
  | read3 => exact hs.withKfg (k := .read4 _) rfl
  | read4 => exact hs.withKfg (k := .read5 _) rfl
  | read5 => exact hs.withKfg (k := .read6 _) rfl
  | read6 => exact hs.withKfg (k := .idle) rfl
  | write1 => exact hs.withKfg (k := .write2 _ _) rfl

theorem fgOutcome_legal {s t : State} (hs : Legal s) (h : fgOutcome s = .next t) : Legal t := by
  rcases fgOutcome_cases s with ⟨u, hm, heq⟩ | ⟨-, heq⟩ | ⟨c, hm, -⟩
  · cases heq.symm.trans h
    exact fgStep_legal hs hm
  · cases heq.symm.trans h
    exact hs
  · obtain ⟨-, hk, -, -⟩ := hs
    exact absurd hm (fgStep_ne_raised hk c)

theorem fgCall_legal {k : KFg} (hk : k.legal = true) {s t : State} (hs : Legal s) (h : fgCall k s = .next t) :
    Legal t := by
  unfold fgCall at h
  repeat' split at h
  case h_1 hm => cases h; exact fgStep_legal (hs.withKfg hk) hm
  case h_2 => cases h; exact hs.withKfg hk
  case h_3 hm => exact absurd hm (fgStep_ne_raised (s := { s with kfg := k }) hk _)
  all_goals cases h

/-! ### Steps of a public program -/

/-- A rule of the ISR context that is no arming operation raises no fault, inside an invocation and at an entry. -/
theorem isrRow_legal {i : Instr} {plan : State → Plan} {s t : State} (hi : armOf i = none)
    (hp : ∀ s, ∃ s1 ops, plan s = .ok (s1, ops) ∧ RowPlans i s s1 ops) (hs : Legal s) (h : isrRow plan s = .next t) :
    Legal t := by
  have runs {s0 : State} (hs0 : Legal s0) {rest : List IsrOp} (hrest : rest.all IsrOp.legal = true)
      (h : runPlan s (plan s0) rest = .next t) : Legal t := by
    obtain ⟨s1, ops, heq, hrow⟩ := hp s0
    rw [heq] at h
    cases h
    exact drive_legal (by rw [List.all_append, legal_of_ofHandler (hrow.ofHandler hi), hrest]; rfl)
      (hrow.keeps_legal hs0)
  cases hk : s.kisr with
  | active k => exact runs hs (hs.ops hk) (isrRow_of_active hk ▸ h)
  | inactive => exact runs (hs.withKisr true rfl) rfl (isrInvoke_next (isrRow_of_inactive hk ▸ h)).2

/-- No row of a public program raises a fault (60_exceptions R164). -/
theorem exec_legal {s t : State} {i : Instr} (hi : PublicRow s i) (hw : i.format = .busev8 → i.wellFormed = true)
    (hs : Legal s) (h : exec i s = .next t) : Legal t := by
  cases hf : i.format with
  | setup64 => exact isrRow_legal hi.noArm (setupPlan_plans hf) hs (exec_setup64 hf s ▸ h)
  | outdone8 => exact isrRow_legal hi.noArm (outDonePlan_plans hf) hs (exec_outdone8 hf s ▸ h)
  | pid4 => exact isrRow_legal hi.noArm (planClassify_plans hf) hs (exec_pid4 hf s ▸ h)
  | classreq8 =>
    obtain ⟨l, heq, -⟩ := classReqEffect_eq (i := i) s
    rw [exec_classreq8 hf, heq] at h
    cases h
    exact hs
  | irq16 =>
    obtain ⟨hr, rfl⟩ := hi.irq hf
    exact exec_irqRow_legal hr hs h
  | busev8 => exact busKept_legal.busRan (busRan_of_exec hf h) (hw hf) hs
  | call8 =>
    cases i
    case init => exact absurd rfl hi.notInit
    case readCharacter => exact fgCall_legal (k := .read1) rfl hs h
    case writeCharacter b => exact fgCall_legal (k := .write1 [b] 0) rfl hs h
    case writeString src => exact fgCall_legal (writeFrom_legal src 0) hs h
    case armOut | armIn | stallIn => cases hi.noArm
    case rxCallback d => exact isrRow_legal (i := .rxCallback d) rfl (fun _ => ⟨_, _, rfl, .receive d rfl⟩) hs h
    case txDoneCallback => exact absurd rfl hi.notTxDone
    all_goals cases hf

theorem act_legal {s u t : State} (hrows : ∀ i, RunsRow s i → PublicRow u i) (ha : Act s u t) (hu : Legal u) :
    Legal t := by
  cases ha with
  | idle => exact hu
  | row hi h => exact exec_legal (hrows _ hi) hi.wellFormed hu h
  | resume h => exact isrResume_legal hu h
  | atom => exact isrAtom_legal hu
  | enterAtom hr h => exact isrEnterAtom_legal hr hu h
  | fg _ h => exact fgOutcome_legal hu h

theorem noFaultOk_step {s t : State} (hs : NoFaultOk s) (h : step s = .next t) : NoFaultOk t := by
  obtain ⟨hp, hlegal⟩ := noFaultOk_iff.mp hs
  obtain ⟨-, l, t0, l', ha, rfl, -, -⟩ := step_act h
  have hrows (i : Instr) (hi : RunsRow s i) : PublicRow (s.setFeed l) i := by
    obtain ⟨hinit, htx, harm, hirq⟩ := hi.publicRow hp
    exact ⟨hinit, htx, harm, hirq⟩
  have ht0 : Legal t0 := act_legal hrows ha hlegal
  exact noFaultOk_iff.mpr ⟨publicFeed_step h hp, ht0⟩

/-- Settles O56: a fault is answered only where FAULT is set, and every act of a public program keeps `Legal`: what is
left to do raises no fault, so FAULT stays clear. -/
theorem publicProgramsNeverFault : Obligations.PublicProgramsNeverFault := fun _ hs =>
  have ⟨hfault, _⟩ := hs
  ⟨noFaultAnswer_step hfault, fun _ h => noFaultOk_step hs h⟩

end Sys2Proof.Machine

namespace Sys2Proof.Machine

open Sys2Proof.Spec0

/-! ### The entry runs the row of the flags (42_dispatcher R111, R112, 60_exceptions R167 to R169) -/

/-- IRQ is 1 where a flag is set or a completion waits (10_state R31, R33). -/
theorem irq_iff {s : State} : s.irq = true ↔ s.rstf = true ∨ s.ueir ≠ 0 ∨ s.stallf = true ∨ s.ustatq ≠ [] := by
  simp [State.irq, State.errf, State.trnf, or_assoc]

/-- The entry condition of 42_dispatcher R111. -/
theorem isrReady_iff {s : State} : s.isrReady = true ↔ s.irq = true ∧ s.gie = true ∧ s.inisr = false := by
  simp [State.isrReady, and_assoc]

theorem headShown_headD (s : State) : headShown (s.ustatq != []) (s.ustatq.headD ⟨0, .out⟩) s = true := by
  cases hq : s.ustatq <;> simp [headShown, hq]

/-- With no other flag set it is a completion that the registers show (42_dispatcher R112). -/
theorem irqShown_trnRow {s : State} (hrstf : s.rstf = false) (hueir : s.ueir = 0) (hstallf : s.stallf = false)
    {c : Completion} (hc : headShown true c s = true) : irqShown (trnRow c) s = true := by
  obtain ⟨ep, dir⟩ := c
  cases dir <;> simp [trnRow, irqShown, State.errf, hrstf, hueir, hstallf, hc]

/-- The registers show the word of the row of the flags (30_encoding R83). -/
theorem irqShown_irqRow {s : State} (h : s.irq = true) : irqShown (irqRow s) s = true := by
  have hhead := headShown_headD s
  rcases irqRow_cases s with ⟨hr, hi⟩ | ⟨hr, hu, hi⟩ | ⟨hr, hu, hst, hi⟩ | ⟨hr, hu, hst, hi⟩ <;> rw [hi]
  · simpa [irqShown, hr, State.errf] using hhead
  · simpa [irqShown, hr, State.errf, show s.ueir ≠ 0#8 from hu] using hhead
  · simpa [irqShown, hr, State.errf, hu, hst] using hhead
  · have hq : s.ustatq ≠ [] := by simpa [hr, hu, hst] using irq_iff.mp h
    rw [bne_iff_ne.mpr hq] at hhead
    exact irqShown_trnRow hr hu hst hhead

/-- A dispatcher row under the entry condition answers a next state that keeps what the writes of the ISR keep. -/
theorem IsrKept.exec_irq16 {P : State → Prop} (h : IsrKept P) {i : Instr} (hf : i.format = .irq16) {s : State}
    (hr : s.isrReady = true) (hs : P s) : ∃ t, exec i s = .next t ∧ P t := by
  rw [Machine.exec_irq16 hf, isrInvoke_of_ready hr]
  rcases irqPlan_cases hf s.enterIsr with ⟨c, hc⟩ | ⟨s0, s1, ops, he, heq, hp⟩
  · exact ⟨s.raise c, by rw [hc]; rfl, h.raise s c hs⟩
  · refine ⟨drive s (ops ++ [.ret]) s1, by rw [heq]; rfl, ?_⟩
    exact h.driveRule.drive _ hs (h.irqPlans hp (h.errorChecked he (h.inIsr (.entry hr) hs)))

/-- The ISR writes neither FG's continuation nor GIE nor the program (60_exceptions R169). -/
theorem isrKept_foreground (k : KFg) (g : Bool) (l : List Line) :
    IsrKept fun s => s.kfg = k ∧ s.gie = g ∧ s.feed = l where

/-- Settles O42: with no line left the entry comes first, and it runs the row the decoder reads from the registers. -/
theorem interruptRunsTheRowOfTheFlags : Obligations.InterruptRunsTheRowOfTheFlags := by
  intro s hfault hfeed
  refine ⟨by rw [isrReady_iff, irq_iff], fun hr => ?_⟩
  have hstep : step s = exec (irqRow s) s := by
    rw [step_nil hfault hfeed, procStep, if_pos hr, isrEnter_eq hr]
  obtain ⟨t, ht, hkept⟩ := (isrKept_foreground s.kfg s.gie []).exec_irq16 (irqRow_format s) hr ⟨rfl, rfl, hfeed⟩
  exact ⟨hstep, decode_irqRecord hr, irqShown_irqRow (irq_of_isrReady hr), t, hstep.trans ht, hkept⟩

/-! ### Refused lines and rows (60_exceptions R162, 42_dispatcher R111) -/

/-- Once FAULT is set no agent takes a step (60_exceptions R158; log entry 8). -/
theorem step_of_fault {s : State} {c : Fault} (h : s.fault = some c) : step s = .fault c := by
  simp only [step, agentStep, h]

theorem inisr_of_isrReady {s : State} (h : s.isrReady = true) : s.inisr = false := (isrReady_iff.mp h).2.2

/-! #### Lines of FG (60_exceptions R162, R167) -/

/-- The outcome refuses a call of FG wherever FG may not start an operation. -/
def CallRefused (s : State) (o : Host.Outcome State Fault Refusal) : Prop :=
  (s.inisr = true → o = .refused .isrActive) ∧ (s.isrReady = true → o = .refused .isrPending)
    ∧ (s.inisr = false → s.isrReady = false → s.kfg ≠ .idle → o = .refused .fgBusy)

theorem callRefused_fgCall (k : KFg) (s : State) : CallRefused s (fgCall k s) := by
  refine ⟨fun hi => ?_, fun hr => ?_, fun hi hr hk => ?_⟩
  · simp [fgCall, hi]
  · simp [fgCall, hr, inisr_of_isrReady hr]
  · simp [fgCall, hi, hr, hk]

theorem callRefused_fgCallLine (k : KFg) (rest : List Line) (s : State) :
    CallRefused s (fgCallLine (fgCall k) rest s) := by
  obtain ⟨hactive, hpending, hbusy⟩ := callRefused_fgCall k s
  refine ⟨fun hi => ?_, fun hr => ?_, fun hi hr hk => ?_⟩
  · rw [fgCallLine, hactive hi]
  · rw [fgCallLine, hpending hr]
  · rw [fgCallLine, hbusy hi hr hk]

/-- The row of a call is refused as a line just as the call is. -/
theorem callRefused_wordLine {i : Instr} {k : KFg} {bs : List Byte} {s : State} (hdec : decode .call8 bs = .ok i)
    (hi : i ≠ .init) (hc : isrContext i = false) (hexec : exec i s = fgCall k s) :
    CallRefused s (wordLine .call8 bs s) := by
  have hline : lineRefusal i s
      = if s.inisr then some .isrActive else if s.isrReady then some .isrPending else none := by
    simp [lineRefusal, decode_format hdec, hi, hc]
  obtain ⟨-, -, hbusy⟩ := callRefused_fgCall k s
  refine ⟨fun hinisr => ?_, fun hr => ?_, fun hinisr hr hk => ?_⟩
  · simp [wordLine, hdec, hline, hinisr]
  · simp [wordLine, hdec, hline, hr, inisr_of_isrReady hr]
  · simp [wordLine, hdec, hline, hinisr, hr, hexec, hbusy hinisr hr hk]

/-- The six lines that make a call of FG. -/
def callLines (b : Byte) (src : List Byte) : List Line :=
  [.fgRead, .fgWrite src, .fgPutc b, .word .call8 (encode .readCharacter), .word .call8 (encode (.writeString src)),
    .word .call8 (encode (.writeCharacter b))]

theorem callRefused_lineStep {b : Byte} {src : List Byte} {l : Line} (hl : l ∈ callLines b src) (rest : List Line)
    (s : State) : CallRefused s (lineStep l rest s) := by
  have row {i : Instr} {k : KFg} (hf : i.format = .call8) (hw : i.wellFormed = true) (hi : i ≠ .init)
      (hc : isrContext i = false) (hexec : exec i (s.setFeed rest) = fgCall k (s.setFeed rest)) :
      CallRefused s (lineStep (.word .call8 (encode i)) rest s) :=
    callRefused_wordLine (s := s.setFeed rest) (hf ▸ decodeInvertsEncode i hw) hi hc hexec
  simp only [callLines, List.mem_cons, List.not_mem_nil, or_false] at hl
  rcases hl with rfl | rfl | rfl | rfl | rfl | rfl
  · exact callRefused_fgCallLine .read1 rest s
  · exact callRefused_fgCallLine (writeFrom src 0) rest s
  · exact callRefused_fgCallLine (.write1 [b] 0) rest s
  · exact row rfl rfl (by simp) rfl (k := .read1) rfl
  · exact row rfl rfl (by simp) rfl (k := writeFrom src 0) rfl
  · exact row rfl rfl (by simp) rfl (k := .write1 [b] 0) rfl

/-! #### Rows of the ISR (42_dispatcher R111; log entry 6) -/

/-- The outcome refuses an invocation wherever the entry condition fails. -/
def EntryRefused (s : State) (o : Host.Outcome State Fault Refusal) : Prop :=
  (s.inisr = true → o = .refused .isrActive)
    ∧ (s.inisr = false → s.gie = false → o = .refused .interruptsMasked)
    ∧ (s.inisr = false → s.gie = true → s.irq = false → o = .refused .isrNotReady)

theorem entryRefused_of_refusal {s : State} {o : Host.Outcome State Fault Refusal}
    (h : ∀ r, s.entryRefusal = some r → o = .refused r) : EntryRefused s o := by
  refine ⟨fun hi => h _ ?_, fun hi hg => h _ ?_, fun hi hg hq => h _ ?_⟩
  · simp [State.entryRefusal, hi]
  · simp [State.entryRefusal, hi, hg]
  · simp [State.entryRefusal, hi, hg, hq]

theorem entryRefused_isrInvoke (plan : State → Plan) (s : State) : EntryRefused s (isrInvoke plan s) :=
  entryRefused_of_refusal fun r hr => by simp only [isrInvoke, hr]

/-- A row that would start an invocation is refused by itself. -/
theorem entryRefused_exec {i : Instr} (hi : isIsrRow i = true ∨ i.format = .irq16) {s : State}
    (hk : s.kisr = .inactive) : EntryRefused s (exec i s) := by
  rcases hi with hrow | hf
  · obtain ⟨plan, hexec, -, -⟩ := exec_isIsrRow hrow
    rw [hexec, isrRow_of_inactive hk]
    exact entryRefused_isrInvoke plan s
  · rw [exec_irq16 hf]
    exact entryRefused_isrInvoke _ s

/-- Where the entry condition fails, that is why the row is refused as a line. -/
theorem lineRefusal_of_entryRefusal {i : Instr} (hi : isrContext i = true ∨ i.format = .irq16) {s : State} {r : Refusal}
    (h : s.entryRefusal = some r) : lineRefusal i s = some r := by
  have hr : s.isrReady = false := by
    rw [← Bool.not_eq_true, ← State.entryRefusal_none, h]
    exact nofun
  rcases hi with hc | hf
  · rw [lineRefusal_eq_entryRefusal hc, h]
  · simp [lineRefusal, hf, hr, h]

theorem step_word_refused {s : State} {f : Format} {bs : List Byte} {i : Instr} {rest : List Line} {r : Refusal}
    (hfault : s.fault = none) (hfeed : s.feed = .word f bs :: rest) (hdec : decode f bs = .ok i)
    (hline : lineRefusal i s = some r) : step s = .refused r := by
  simp only [step_line hfault hfeed, lineStep, wordLine, hdec, lineRefusal_setFeed, hline]

/-- Settles O44: FAULT stops every step (log entry 8), a refused line answers its first refusal, and a row of the ISR has
the refusals of the entry (log entry 6). -/
theorem faultedAndRefusedSteps : Obligations.FaultedAndRefusedSteps := by
  refine ⟨fun s c h => step_of_fault h, fun s rest hfault => ?_, fun i s bs rest hi hfault hfeed hdec => ?_⟩
  · have line {l : Line} (hfeed : s.feed = l :: rest) : step s = lineStep l rest s := step_line hfault hfeed
    refine ⟨fun f bs e hfeed hdec => ?_, fun hfeed hr => ?_, fun hfeed hi => ?_, fun hfeed hi hr hk => ?_,
      fun hi hfeed => ?_, fun hr hfeed => ?_, fun b src l hl hfeed => line hfeed ▸ callRefused_lineStep hl rest s⟩ <;>
      rw [line hfeed]
    · simp only [lineStep, wordLine, hdec]
    · simp [lineStep, hr]
    · simp [lineStep, hi]
    · simp [lineStep, fgRunLine, hi, hr, hk]
    · simp [lineStep, fgRunLine, hi]
    · simp [lineStep, fgRunLine, hr, inisr_of_isrReady hr]
  · have hrow : isrContext i = true ∨ i.format = .irq16 := by simpa [isrContext_iff, or_assoc] using hi
    obtain ⟨hactive, hmasked, hidle⟩ : EntryRefused s (step s) := entryRefused_of_refusal fun r hr =>
      step_word_refused hfault hfeed hdec (lineRefusal_of_entryRefusal hrow hr)
    refine ⟨hactive, hmasked, hidle, fun hf hr hshown => ?_, fun hne hk => entryRefused_exec ?_ hk⟩
    · exact step_word_refused hfault hfeed hdec (by simp [lineRefusal, hf, hr, hshown])
    · simpa [hne] using hi

end Sys2Proof.Machine

namespace Sys2Proof.Machine

open Sys2Proof.Spec0

/-! ## Properties kept by every step of a public program (60_exceptions R164)

Such a program runs bus events, the dispatcher's row of the flags, and FG's reads and writes, so a property is kept once
each of these keeps it. -/

/-- The line at which a read or a write starts (44_byte_stream R135, R137, R139). -/
def PublicStart (k : KFg) : Prop := k = .read1 ∨ ∃ src, k = writeFrom src 0

theorem writeFrom_ne_arm (src : List Byte) (off : Nat) (a : ArmOp) : writeFrom src off ≠ .arm a := by
  unfold writeFrom
  split <;> simp

theorem PublicStart.ne_arm {k : KFg} (h : PublicStart k) (a : ArmOp) : k ≠ .arm a := by
  rcases h with rfl | ⟨src, rfl⟩
  · simp
  · exact writeFrom_ne_arm src 0 a

/-- A CALL8 line of a public program calls a read or a write. -/
theorem exec_publicCall {c : Byte} {bs : List Byte} {i : Instr} (hc : (c == 0x01 || c == 0x02 || c == 0x03) = true)
    (h : decode .call8 (c :: bs) = .ok i) : ∃ k, PublicStart k ∧ exec i = fgCall k := by
  replace h : decodeCallRec (c :: bs) = .ok i := h
  simp only [Bool.or_eq_true, beq_iff_eq] at hc
  rcases hc with (rfl | rfl) | rfl
  · rw [noOperands_ok (i := .readCharacter) h]
    exact ⟨_, .inl rfl, rfl⟩
  · replace h : decodeWriteCharacter bs = .ok i := h
    unfold decodeWriteCharacter at h
    split at h <;> cases h
    exact ⟨_, .inr ⟨[_], rfl⟩, rfl⟩
  · cases h
    exact ⟨_, .inr ⟨bs, rfl⟩, rfl⟩

/-- The rows a public program runs. -/
theorem RunsRow.public_cases {s : State} {i : Instr} (hp : PublicFeed s) (h : RunsRow s i) :
    i.format = .busev8 ∨ (s.isrReady = true ∧ i = irqRow s) ∨ ∃ k, PublicStart k ∧ exec i = fgCall k := by
  rcases h with ⟨f, bs, rest, hs, hd, -⟩ | hirq | rfl | ⟨src, rfl⟩ | ⟨b, rfl⟩
  · have hl : Line.isPublic (.word f bs) = true := List.all_eq_true.mp hp _ (by simp [hs])
    cases f
    case busev8 => exact .inl (decode_format hd)
    case call8 =>
      cases bs with
      | nil => cases hl
      | cons c bs => exact .inr (.inr (exec_publicCall hl hd))
    all_goals cases hl
  · exact .inr (.inl hirq)
  · exact .inr (.inr ⟨_, .inl rfl, rfl⟩)
  · exact .inr (.inr ⟨_, .inr ⟨src, rfl⟩, rfl⟩)
  · exact .inr (.inr ⟨_, .inr ⟨[b], rfl⟩, rfl⟩)

/-- `P` is kept by what the agents of a public program do, with `I` the assertion about what is left of an invocation. -/
structure PublicKept (I : List IsrOp → State → Prop) (P : State → Prop) : Prop where
  rule : DriveRule I P
  held : ∀ s k, P s → s.kisr = .active k → I k s
  entry : ∀ s u ops, P s → s.isrReady = true → irqPlan (irqRow s) s.enterIsr = .ok (u, ops) → I (ops ++ [.ret]) u
  bus : ∀ i s t, i.format = .busev8 → i.wellFormed = true → exec i s = .next t → P s → P t
  call : ∀ s k, PublicStart k → s.inisr = false → P s → P { s with kfg := k }
  fg : ∀ s t, s.inisr = false → P s → fgStep s = .moved t → P t
  feed : ∀ s l, P s → P (s.setFeed l)

namespace PublicKept

variable {I : List IsrOp → State → Prop} {P : State → Prop}

theorem exec_irqRow (h : PublicKept I P) {s t : State} (hr : s.isrReady = true) (ht : exec (irqRow s) s = .next t)
    (hs : P s) : P t := by
  rw [exec_irq16 (irqRow_format s)] at ht
  obtain ⟨-, ⟨u, ops, hplan, rfl⟩ | ⟨c, rfl⟩⟩ := isrInvoke_cases ht
  · exact h.rule.drive _ hs (h.entry s u ops hs hr hplan)
  · exact h.rule.raise s c hs

theorem enterAtom (h : PublicKept I P) {s t : State} (hr : s.isrReady = true) (ht : isrEnterAtom s = .next t)
    (hs : P s) : P t := by
  rcases isrEnterAtom_cases hr ht with ⟨-, u, ops, -, hplan, -, rfl⟩ | ⟨c, -, rfl⟩
  · exact h.rule.segment _ hs (h.entry s u ops hs hr hplan)
  · exact h.rule.raise s c hs

theorem fgCall (h : PublicKept I P) {k : KFg} (hk : PublicStart k) {s t : State} (ht : fgCall k s = .next t)
    (hs : P s) : P t := by
  have hi : s.inisr = false := by
    cases hi : s.inisr with
    | false => rfl
    | true => simp [Machine.fgCall, hi] at ht
  rcases fgCall_next ht with hm | rfl | ⟨c, rfl⟩
  · exact h.fg { s with kfg := k } t hi (h.call s k hk hi hs) hm
  · exact h.call s k hk hi hs
  · exact h.rule.raise s c hs

theorem act (h : PublicKept I P) {s : State} {l : List Line} {t : State} (hp : PublicFeed s)
    (ha : Act s (s.setFeed l) t) (hs : P (s.setFeed l)) : P t := by
  cases ha with
  | idle => exact hs
  | row hi ht =>
    rcases hi.public_cases hp with hf | ⟨hr, rfl⟩ | ⟨k, hk, hexec⟩
    · exact h.bus _ _ _ hf (hi.wellFormed hf) ht hs
    · exact h.exec_irqRow (s := s.setFeed l) hr ht hs
    · exact h.fgCall hk (hexec ▸ ht) hs
  | resume ht => exact h.rule.resume hs (fun k => h.held _ k hs) ht
  | atom => exact h.rule.atom hs fun k => h.held _ k hs
  | enterAtom hr ht => exact h.enterAtom hr ht hs
  | fg hi ht =>
    rcases fgOutcome_next ht with hm | rfl | ⟨c, rfl⟩
    · exact h.fg _ t hi hs hm
    · exact hs
    · exact h.rule.raise _ c hs

/-- Every step of a public program keeps the property. -/
theorem step (h : PublicKept I P) {s t : State} (hp : PublicFeed s) (ht : step s = .next t) (hs : P s) : P t := by
  obtain ⟨-, l, t0, l', ha, rfl, -, -⟩ := step_act ht
  exact h.feed _ l' (h.act hp ha (h.feed s l hs))

end PublicKept

/-! ### What the dispatcher's row of the flags plans (42_dispatcher R112 to R119) -/

/-- What the handler of an OUT-direction completion leaves to do: on the data endpoint the re-arm alone, on endpoint 0 what
its handlers may. -/
inductive OutHandlerOps : BitVec 4 → List IsrOp → Prop
  | nothing (ep : BitVec 4) : OutHandlerOps ep []
  | data (t : Bool) : OutHandlerOps 2 [.arm (.armOut 2 t)]
  | ep0 {ops : List IsrOp} : Ep0Ops ops → OutHandlerOps 0 ops

/-- The handler the dispatcher selects is one of the completion's endpoint (42_dispatcher R118). -/
theorem outDonePlan_handler (ep pid : BitVec 4) (s : State) :
    ∃ u ops, outDonePlan (decodeOutDone ep pid) s = .ok (u, ops ++ outEnd ep) ∧ OutHandlerOps ep ops := by
  unfold decodeOutDone
  split
  · split
    · next he =>
      obtain ⟨c, p, ops, hplan, hops, -⟩ := setupPlan_cases (decodeSetup (readSetup s.ram (s.bd .ep0Out).adr)) s
      subst he
      exact ⟨_, ops, by rw [outDonePlan, planEp0Setup, planSetupDecode, hplan]; rfl, .ep0 hops⟩
    · exact ⟨s, [], rfl, .nothing ep⟩
  split
  · split
    · next he =>
      obtain ⟨c, l, ops, hplan, hops⟩ := planEp0Out_cases s
      subst he
      exact ⟨_, ops, by rw [outDonePlan, planEp0TokenOut, hplan]; rfl, .ep0 hops⟩
    split
    · next he => subst he; exact ⟨_, _, rfl, .data _⟩
    · exact ⟨s, [], rfl, .nothing ep⟩
  split
  · exact ⟨s, [], rfl, .nothing ep⟩
  · exact ⟨s, [], rfl, .nothing ep⟩

theorem planTrnOut_handler {ep : BitVec 4} {s u : State} {ops : List IsrOp} (h : planTrnOut ep s = .ok (u, ops)) :
    ∃ l, OutHandlerOps ep l ∧ ops = l ++ outEnd ep ++ [.dequeue] := by
  cases hs : slotOf ep .out with
  | none => rw [planTrnOut_of_none _ hs] at h; cases h
  | some sl =>
    obtain ⟨v, l, hplan, hl⟩ := outDonePlan_handler ep (s.bd sl).pid s
    rw [planTrnOut_of_ok hs hplan] at h
    cases h
    exact ⟨l, hl, rfl⟩

/-- A dispatcher row that serves an OUT-direction completion plans its handler, behind the error check if there is one. -/
theorem Serves.irqPlan_eq {i : Instr} {ep : BitVec 4} (h : Serves i .out ep) (s : State) :
    ∃ s0, irqPlan i s = planTrnOut ep s0 := by
  rcases h with rfl | rfl
  · exact ⟨s, rfl⟩
  · exact ⟨{ s with ueir := 0 }, rfl⟩

/-- What an entry leaves to do, by the head of USTATQ. -/
inductive EntryOps (s : State) : List IsrOp → Prop
  | nothing : EntryOps s []
  | inn {ep : BitVec 4} : s.ustatq.head? = some ⟨ep, .inn⟩ → EntryOps s [.dequeue]
  | out {ep : BitVec 4} {ops : List IsrOp} : s.ustatq.head? = some ⟨ep, .out⟩ → OutHandlerOps ep ops →
      EntryOps s (ops ++ outEnd ep ++ [.dequeue])

theorem entryOps {s u : State} {ops : List IsrOp} (hr : s.isrReady = true)
    (h : irqPlan (irqRow s) s.enterIsr = .ok (u, ops)) : EntryOps s ops := by
  rcases irqPlan_cases (irqRow_format s) s.enterIsr with ⟨c, hc⟩ | ⟨s0, u', ops', -, heq, hp⟩
  · rw [hc] at h; cases h
  obtain ⟨rfl, rfl⟩ := Prod.mk.inj (Except.ok.inj (h.symm.trans heq))
  cases hp with
  | reset | release | nothing => exact .nothing
  | inn hs => exact .inn (irqRow_serves hr hs)
  | out hs hrow =>
    obtain ⟨s0, hplan⟩ := hs.irqPlan_eq s.enterIsr
    obtain ⟨l, hl, heq'⟩ := planTrnOut_handler (hplan.symm.trans h)
    rw [heq']
    exact .out (irqRow_serves hr hs) hl

/-- The queue and KFG are the same in both states, and the CPU keeps each descriptor it owns. -/
structure KeepsOwned (s t : State) : Prop where
  ustatq : t.ustatq = s.ustatq
  kfg : t.kfg = s.kfg
  own : ∀ sl, (s.bd sl).own = .cpu → (t.bd sl).own = .cpu

theorem KeepsOwned.of_eq {s t : State} (hq : t.ustatq = s.ustatq) (hk : t.kfg = s.kfg) (hb : t.bdt = s.bdt) :
    KeepsOwned s t := ⟨hq, hk, fun sl h => by rwa [State.bd_congr hb]⟩

theorem RowPlans.keepsOwned {i : Instr} {s u : State} {ops : List IsrOp} (h : RowPlans i s u ops) :
    KeepsOwned s u ∧ u.kisr = s.kisr := by
  cases h with
  | receive => rw [rxStore_frame]; exact ⟨.of_eq rfl rfl rfl, rfl⟩
  | _ => exact ⟨.of_eq rfl rfl rfl, rfl⟩

/-- `on_stall` only releases descriptors (42_dispatcher R115). -/
theorem keepsOwned_onStall (s : State) : KeepsOwned s (onStall s) := by
  rw [onStall_eq]
  refine ⟨rfl, rfl, fun sl h => ?_⟩
  cases sl
  case ep0Out | ep2Out => exact h
  all_goals
    simp only [State.bd] at h ⊢
    split
    · rfl
    · exact h

theorem IrqPlans.keepsOwned {i : Instr} {s u : State} {ops : List IsrOp} (h : IrqPlans i s u ops) :
    KeepsOwned s u ∧ u.kisr = s.kisr := by
  cases h with
  | reset | nothing => exact ⟨.of_eq rfl rfl rfl, rfl⟩
  | release => exact ⟨keepsOwned_onStall s, by rw [onStall_eq]⟩
  | inn =>
    rcases inComplete_cases _ s with ⟨a, -, heq⟩ | ⟨-, -, heq⟩ | ⟨-, -, heq⟩ <;> rw [heq] <;>
      exact ⟨.of_eq rfl rfl rfl, rfl⟩
  | out _ hrow => exact hrow.keepsOwned

/-- An entry's own writes take no descriptor from the CPU. -/
theorem entry_keepsOwned {s u : State} {ops : List IsrOp} (h : irqPlan (irqRow s) s.enterIsr = .ok (u, ops)) :
    KeepsOwned s u ∧ u.kisr = .active [.ret] := by
  rcases irqPlan_cases (irqRow_format s) s.enterIsr with ⟨c, hc⟩ | ⟨s0, u', ops', he, heq, hp⟩
  · rw [hc] at h; cases h
  obtain ⟨rfl, rfl⟩ := Prod.mk.inj (Except.ok.inj (h.symm.trans heq))
  obtain ⟨⟨hq, hk, ho⟩, hkisr⟩ := hp.keepsOwned
  rcases he with rfl | rfl <;> exact ⟨⟨hq, hk, ho⟩, hkisr⟩

end Sys2Proof.Machine

namespace Sys2Proof.Machine

open Sys2Proof.Spec0

/-! ## The hand-off of the OUT descriptors (70_reset R185) -/

/-- For each OUT descriptor, of being with the SIE and having a completion in the queue at most one holds; and FG calls no
arming operation. -/
def HandedOff (s : State) : Prop :=
  (∀ ep sl, slotOf ep .out = some sl → one ((s.bd sl).own == .sie) + pending ep .out s ≤ 1) ∧ ∀ a, s.kfg ≠ .arm a

theorem HandedOff.count {s : State} (h : HandedOff s) {ep : BitVec 4} {sl : Slot} (hsl : slotOf ep .out = some sl) :
    one ((s.bd sl).own == .sie) + pending ep .out s ≤ 1 := h.1 ep sl hsl

theorem HandedOff.noArm {s : State} (h : HandedOff s) : ∀ a, s.kfg ≠ .arm a := h.2

/-- What an invocation at a hold point has left to do for an OUT-direction completion of an endpoint. -/
inductive HoldRest : BitVec 4 → List IsrOp → Prop
  | rearm {ep : BitVec 4} {sl : Slot} (t : Bool) : slotOf ep .out = some sl →
      HoldRest ep (.arm (.armOut ep t) :: (outEnd ep ++ [.dequeue, .ret]))
  | answer {a : ArmOp} (t : Bool) : ArmOp.ep0In a = true →
      HoldRest 0 (.arm a :: .arm (.armOut 0 t) :: (outEnd 0 ++ [.dequeue, .ret]))

theorem heldShape_iff {s : State} :
    HeldShape s ↔ ∀ k, s.kisr = .active k → ∃ ep, s.ustatq.head? = some ⟨ep, .out⟩ ∧ HoldRest ep k := by
  refine forall₂_congr fun k _ => ⟨?_, ?_⟩
  · rintro (⟨hq, t, rfl | ⟨a, ha, rfl⟩⟩ | ⟨hq, t, rfl⟩)
    · exact ⟨0, hq, .rearm (sl := .ep0Out) t rfl⟩
    · exact ⟨0, hq, .answer t ha⟩
    · exact ⟨2, hq, .rearm (sl := .ep2Out) t rfl⟩
  · rintro ⟨ep, hq, hk⟩
    cases hk with
    | rearm t hsl =>
      rcases slotOf_out hsl with ⟨rfl, -⟩ | ⟨rfl, -⟩
      · exact .inl ⟨hq, t, .inl rfl⟩
      · exact .inr ⟨hq, t, rfl⟩
    | answer t ha => exact .inl ⟨hq, t, .inr ⟨_, ha, rfl⟩⟩

theorem outOk_iff {s : State} : OutOk s ↔ PublicFeed s ∧ HandedOff s ∧ HeldShape s := by
  constructor
  · rintro ⟨hp, h0, h2, hk, hshape⟩
    refine ⟨hp, ⟨fun ep sl hsl => ?_, hk⟩, hshape⟩
    rcases slotOf_out hsl with ⟨rfl, rfl⟩ | ⟨rfl, rfl⟩
    · exact h0
    · exact h2
  · rintro ⟨hp, ⟨hc, hk⟩, hshape⟩
    exact ⟨hp, hc 0 .ep0Out rfl, hc 2 .ep2Out rfl, hk, hshape⟩

/-! ### The count -/

theorem one_le (b : Bool) : one b ≤ 1 := by cases b <;> decide

theorem one_beq_sie_le {b c : BD} (h : b.own = .cpu → c.own = .cpu) : one (c.own == .sie) ≤ one (b.own == .sie) := by
  cases hb : b.own with
  | cpu => rw [h hb]
  | sie => cases c.own <;> decide

/-- The hand-off depends on the OUT descriptors with the SIE and on the waiting OUT completions, and fewer are right
too. -/
theorem HandedOff.of_le {s t : State} (h : HandedOff s)
    (hown : ∀ ep sl, slotOf ep .out = some sl → (s.bd sl).own = .cpu → (t.bd sl).own = .cpu)
    (hq : ∀ ep, pending ep .out t ≤ pending ep .out s) (hk : ∀ a, t.kfg ≠ .arm a) : HandedOff t :=
  ⟨fun ep sl hsl =>
    Nat.le_trans (Nat.add_le_add (one_beq_sie_le (hown ep sl hsl)) (hq ep)) (h.count hsl), hk⟩

theorem HandedOff.keepsOwned {s t : State} (h : HandedOff s) (ht : KeepsOwned s t) : HandedOff t :=
  h.of_le (fun _ sl _ => ht.own sl) (fun ep => by rw [pending, ht.ustatq]; rfl) (by rw [ht.kfg]; exact h.noArm)

theorem HandedOff.dequeue {s : State} (h : HandedOff s) : HandedOff { s with ustatq := s.ustatq.tail } :=
  h.of_le (fun _ sl _ ho => by rwa [State.bd_congr (t := { s with ustatq := s.ustatq.tail }) (s := s) rfl])
    (fun _ => (List.tail_sublist _).count_le _) h.noArm

/-- A completion of the OUT direction waits only while the CPU owns its descriptor. -/
theorem HandedOff.own_of_head {s : State} (h : HandedOff s) {ep : BitVec 4} {sl : Slot} (hsl : slotOf ep .out = some sl)
    (hq : s.ustatq.head? = some ⟨ep, .out⟩) : (s.bd sl).own = .cpu := by
  have hpend : 0 < pending ep .out s := List.count_pos_iff.mpr (List.mem_of_mem_head? hq)
  have hc := h.count hsl
  cases ho : (s.bd sl).own with
  | cpu => rfl
  | sie =>
    rw [ho] at hc
    change 1 + _ ≤ 1 at hc
    omega

theorem slotOf_out_injective {ep ep' : BitVec 4} {sl : Slot} (h : slotOf ep .out = some sl)
    (h' : slotOf ep' .out = some sl) : ep' = ep := by
  rcases slotOf_out h with ⟨rfl, rfl⟩ | ⟨rfl, rfl⟩ <;> rcases slotOf_out h' with ⟨rfl, h'⟩ | ⟨rfl, h'⟩
  · rfl
  · cases h'
  · cases h'
  · rfl

/-- A reception goes from "with the SIE" to "completion waiting" (45_sie_bus_agent R147, R149). -/
theorem HandedOff.receive {s : State} (h : HandedOff s) {ep : BitVec 4} {sl : Slot} (hsl : slotOf ep .out = some sl)
    (ho : (s.bd sl).own = .sie) (pid : BitVec 4) (d : List Byte) : HandedOff (receive sl ⟨ep, .out⟩ pid d s) := by
  refine ⟨fun ep' sl' hsl' => ?_, by rw [receive_eq]; exact h.noArm⟩
  have hc := h.count hsl'
  have hq : pending ep' .out (Machine.receive sl ⟨ep, .out⟩ pid d s)
      = pending ep' .out s + if ep = ep' then 1 else 0 := by
    rw [pending, receive_eq]
    simp [pending, List.count_append, List.count_singleton]
  rw [hq, receive_bd]
  by_cases hsame : sl' = sl
  · subst hsame
    obtain rfl := slotOf_out_injective hsl' hsl
    rw [ho] at hc
    change 1 + _ ≤ 1 at hc
    rw [if_pos rfl, if_pos rfl]
    show 0 + _ ≤ 1
    omega
  · have hep : ep ≠ ep' := by
      rintro rfl
      exact hsame (Option.some.inj (hsl'.symm.trans hsl))
    rw [if_neg hsame, if_neg hep]
    exact hc

/-- A re-arm and the consumption of its completion go from "completion waiting" to "with the SIE" (42_dispatcher R116). -/
theorem HandedOff.rearm {s u : State} (h : HandedOff s) {ep : BitVec 4} {t : Bool}
    (hq : s.ustatq.head? = some ⟨ep, .out⟩) (hr : (ArmOp.armOut ep t).run s = .done u) :
    HandedOff { u with ustatq := u.ustatq.tail } := by
  obtain ⟨sl, hsl, -, -, hbd, -⟩ := ArmOp.run_done hr
  obtain ⟨q, hcons⟩ := List.head?_eq_some_iff.mp hq
  obtain ⟨hu, hk⟩ : u.ustatq = s.ustatq ∧ u.kfg = s.kfg := by rw [ArmOp.run_eq hr]; exact ⟨rfl, rfl⟩
  refine ⟨fun ep' sl' hsl' => ?_, by show ∀ a, u.kfg ≠ .arm a; rw [hk]; exact h.noArm⟩
  have hc := h.count hsl'
  show one ((State.bd u sl').own == .sie) + u.ustatq.tail.count ⟨ep', .out⟩ ≤ 1
  rw [hbd, hu, hcons, List.tail_cons]
  rw [pending, hcons] at hc
  by_cases hep : ep' = ep
  · subst hep
    rw [List.count_cons_self] at hc
    have hone := one_le ((if sl' = sl then (ArmOp.armOut ep' t).armed (s.bd sl) else s.bd sl').own == .sie)
    omega
  · have hne : sl' ≠ sl := by
      rintro rfl
      exact hep (slotOf_out_injective hsl hsl')
    have hcomp : (⟨ep, .out⟩ : Completion) ≠ ⟨ep', .out⟩ := by simpa using Ne.symm hep
    rw [List.count_cons_of_ne hcomp] at hc
    rw [if_neg hne]
    exact hc

/-- An IN arm of endpoint 0 leaves the OUT descriptors alone. -/
theorem HandedOff.armIn {s u : State} (h : HandedOff s) {a : ArmOp} {sl : Slot} (ha : a.slot = some sl)
    (hsl : sl = .ep0In ∨ sl = .ep2In) (hr : a.run s = .done u) : HandedOff u := by
  obtain ⟨sl', hsl', -, -, hbd, -⟩ := ArmOp.run_done hr
  obtain rfl : sl = sl' := Option.some.inj (ha.symm.trans hsl')
  obtain ⟨hu, hk⟩ : u.ustatq = s.ustatq ∧ u.kfg = s.kfg := by rw [ArmOp.run_eq hr]; exact ⟨rfl, rfl⟩
  refine h.of_le (fun ep sl' hout ho => ?_) (fun ep => by rw [pending, hu]; rfl) (by rw [hk]; exact h.noArm)
  rw [hbd, if_neg]
  · exact ho
  · rcases slotOf_out hout with ⟨-, rfl⟩ | ⟨-, rfl⟩ <;> rcases hsl with rfl | rfl <;> simp

/-! ### Bus events, FG and the rest of an invocation -/

theorem busKept_handedOff : BusKept HandedOff where
  received _ _ _ pid d hsl ho _ _ h := h.receive hsl ho pid d
  transmitted s ep sl hsl _ _ h := by
    refine h.of_le (fun ep' sl' _ ho => ?_) (fun ep' => ?_) (by rw [transmit_eq]; exact h.noArm)
    · rw [transmit_bd]
      split
      · rfl
      · exact ho
    · rw [pending, transmit_eq]
      simp [pending, List.count_append]

theorem handedOff_fgStep {s t : State} (h : HandedOff s) (hm : fgStep s = .moved t) : HandedOff t := by
  have plain {k : KFg} (hk : ∀ a, k ≠ .arm a) : HandedOff { s with kfg := k } := ⟨h.1, hk⟩
  cases fgMoves hm with
  | write3 _ hu => exact ⟨(h.armIn (sl := .ep2In) rfl (.inr rfl) hu).1, nofun⟩
  | write4 => exact plain (writeFrom_ne_arm _ _)
  | arm hk => exact absurd hk (h.noArm _)
  | _ => exact plain nofun

/-- A completion stays at the head of the queue while bus events come (42_dispatcher R116, 70_reset R192). -/
theorem heldShape_bus {i : Instr} {s t : State} (hb : BusRan i s t) (h : HeldShape s) : HeldShape t := by
  have hkisr : t.kisr = s.kisr := by rw [hb.frame]
  rw [heldShape_iff] at h ⊢
  intro k hk
  obtain ⟨ep, hq, hrest⟩ := h k (hkisr.symm.trans hk)
  refine ⟨ep, ?_, hrest⟩
  rcases hb.ustatq with heq | ⟨c, heq⟩ <;> rw [heq]
  · exact hq
  · simp [List.head?_append, hq]

/-- What is left of an invocation, from the state in which it is reached: at an arm the completion it serves is at the
head of the queue, and at the return the hand-off is right again. -/
def OutPoint : List IsrOp → State → Prop
  | [], _ => False
  | .ret :: _, s => HandedOff s
  | .pktdisOff :: k, s => OutPoint k { s with pktdis := false }
  | .dequeue :: k, s => OutPoint k { s with ustatq := s.ustatq.tail }
  | .arm a :: k, s => HandedOff s ∧ ∃ ep, s.ustatq.head? = some ⟨ep, .out⟩ ∧ HoldRest ep (.arm a :: k)

theorem outPoint_consumed {s : State} (h : HandedOff { s with ustatq := s.ustatq.tail }) (ep : BitVec 4) :
    OutPoint (outEnd ep ++ [.dequeue, .ret]) s := by
  rw [outEnd]
  split
  · exact h
  · exact h

theorem outPoint_arm {a : ArmOp} {k : List IsrOp} {s u : State} (h : OutPoint (.arm a :: k) s)
    (hr : a.run s = .done u) : OutPoint k u := by
  obtain ⟨hs, ep, hq, hk⟩ := h
  cases hk with
  | rearm => exact outPoint_consumed (hs.rearm hq hr) ep
  | answer t ha =>
    refine ⟨hs.armIn (ArmOp.slot_of_ep0In ha) (.inl rfl) hr, 0, ?_, .rearm (sl := .ep0Out) t rfl⟩
    rw [ArmOp.run_eq hr]
    exact hq

theorem outRule : DriveRule OutPoint fun s => HandedOff s ∧ HeldShape s where
  pktdisOff _ _ h := h
  dequeue _ _ h := h
  arm _ _ _ _ := outPoint_arm
  stop _ h := h.elim
  ret _ _ h := ⟨h, nofun⟩
  hold a k s h := by
    obtain ⟨hs, hk⟩ := h
    refine ⟨hs, heldShape_iff.mpr ?_⟩
    rintro k' ⟨⟩
    exact hk
  raise _ _ h := h

/-- At a hold point. -/
theorem outPoint_held {s : State} {k : List IsrOp} (h : HandedOff s ∧ HeldShape s) (hk : s.kisr = .active k) :
    OutPoint k s := by
  obtain ⟨hs, hshape⟩ := h
  obtain ⟨ep, hq, hrest⟩ := heldShape_iff.mp hshape k hk
  cases hrest with
  | rearm t hsl => exact ⟨hs, ep, hq, .rearm t hsl⟩
  | answer t ha => exact ⟨hs, 0, hq, .answer t ha⟩

/-- With the handler of the completion at the head of the queue before it. -/
theorem outPoint_handler {s : State} {ep : BitVec 4} {ops : List IsrOp} (h : HandedOff s)
    (hq : s.ustatq.head? = some ⟨ep, .out⟩) (hops : OutHandlerOps ep ops) :
    OutPoint (ops ++ (outEnd ep ++ [.dequeue, .ret])) s := by
  cases hops with
  | nothing => exact outPoint_consumed h.dequeue ep
  | data t => exact ⟨h, 2, hq, .rearm (sl := .ep2Out) t rfl⟩
  | ep0 hops =>
    cases hops with
    | none => exact outPoint_consumed h.dequeue 0
    | rearm t => exact ⟨h, 0, hq, .rearm (sl := .ep0Out) t rfl⟩
    | answer ha => exact ⟨h, 0, hq, .answer false ha⟩

theorem outPoint_entry {s u : State} {ops : List IsrOp} (hs : HandedOff s) (hr : s.isrReady = true)
    (h : irqPlan (irqRow s) s.enterIsr = .ok (u, ops)) : OutPoint (ops ++ [.ret]) u := by
  obtain ⟨hkeep, -⟩ := entry_keepsOwned h
  have hu := hs.keepsOwned hkeep
  cases entryOps hr h with
  | nothing => exact hu
  | inn => exact hu.dequeue
  | @out ep l hq hl =>
    rw [List.append_assoc, List.append_assoc]
    exact outPoint_handler hu (by rw [hkeep.ustatq]; exact hq) hl

theorem publicKept_handedOff : PublicKept OutPoint fun s => HandedOff s ∧ HeldShape s where
  rule := outRule
  held _ _ := outPoint_held
  entry _ _ _ h := outPoint_entry h.1
  bus i s t hf hw ht h :=
    have hb := busRan_of_exec hf ht
    ⟨busKept_handedOff.busRan hb hw h.1, heldShape_bus hb h.2⟩
  call _ _ hk _ h := ⟨⟨h.1.1, hk.ne_arm⟩, h.2⟩
  fg s t _ h hm := by
    obtain ⟨-, hkisr, hq, -⟩ := fgStep_sameIrq hm
    refine ⟨handedOff_fgStep h.1 hm, ?_⟩
    have hshape := h.2
    unfold HeldShape at hshape ⊢
    rwa [hkisr, hq]
  feed _ _ h := h

theorem outOk_step {s t : State} (hs : OutOk s) (h : step s = .next t) : OutOk t := by
  obtain ⟨hp, hout⟩ := outOk_iff.mp hs
  exact outOk_iff.mpr ⟨publicFeed_step h hp, publicKept_handedOff.step hp h hout⟩

/-- Settles O58: the hand-off and the shape of what is left are kept by every step of a public program; at an `arm_out` the
completion waits, so the CPU owns the descriptor. -/
theorem armOutNeverHolds : Obligations.ArmOutNeverHolds := by
  refine ⟨fun s t hs h => outOk_step hs h, fun s a k hs hk => ?_⟩
  obtain ⟨-, hout, hshape⟩ := outOk_iff.mp hs
  obtain ⟨ep, hq, hrest⟩ := heldShape_iff.mp hshape _ hk
  cases hrest with
  | rearm t hsl =>
    have hown := hout.own_of_head hsl hq
    rcases slotOf_out hsl with ⟨rfl, rfl⟩ | ⟨rfl, rfl⟩
    · exact .inl ⟨t, rfl, hown⟩
    · exact .inr (.inl ⟨t, rfl, hown⟩)
  | answer t ha => exact .inr (.inr ha)

end Sys2Proof.Machine

namespace Sys2Proof.Machine

open Sys2Proof.Spec0

/-! ## An IN arm that holds while packet processing is disabled (70_reset R186) -/

/-- The ISR stands at this arm, whose descriptor the SIE owns, while packet processing is disabled; FG stands at this
line. -/
def Stuck (a : ArmOp) (k : List IsrOp) (f : KFg) (s : State) : Prop :=
  s.inisr = true ∧ s.pktdis = true ∧ s.bdt.ep0In.own = .sie ∧ s.kisr = .active (.arm a :: k) ∧ s.kfg = f

section Stuck

variable {a : ArmOp} {k : List IsrOp} {f : KFg} (hin : ArmOp.ep0In a = true) (hlegal : a.legal = true)
include hin hlegal

theorem Stuck.run_hold {s : State} (h : Stuck a k f s) : a.run s = .hold := by
  obtain ⟨-, -, ho, -, -⟩ := h
  exact ArmOp.run_of_sie (ArmOp.argsOk_of_legal hlegal) (ArmOp.slot_of_ep0In hin) ho

/-- The arm holds, so nothing behind it is reached. -/
theorem stuckRule : DriveRule (fun l s => Stuck a k f s ∧ l = .arm a :: k) (Stuck a k f) where
  pktdisOff _ _ h := nomatch h.2
  dequeue _ _ h := nomatch h.2
  arm a' k' s u h hr := by
    obtain ⟨hs, hl⟩ := h
    cases hl
    cases (hs.run_hold hin hlegal).symm.trans hr
  stop _ h := nomatch h.2
  ret _ _ h := nomatch h.2
  hold a' k' s h := by
    obtain ⟨⟨-, hp, ho, -, hf⟩, hl⟩ := h
    cases hl
    exact ⟨rfl, hp, ho, rfl, hf⟩
  raise _ _ h := h

/-- No entry is due and no step of FG comes while INISR = 1, and no token reaches a descriptor under PKTDIS. -/
theorem publicKept_stuck : PublicKept (fun l s => Stuck a k f s ∧ l = .arm a :: k) (Stuck a k f) where
  rule := stuckRule hin hlegal
  held s k' h hk := ⟨h, by
    obtain ⟨-, -, -, hkisr, -⟩ := h
    exact KIsr.active.inj (hk.symm.trans hkisr)⟩
  entry s u ops h hr := by cases (inisr_of_isrReady hr).symm.trans h.1
  bus i s t hf _ ht h := by
    obtain ⟨-, hp, -⟩ := id h
    rw [exec_busev8_of_pktdis hf hp ht]
    exact h
  call s _ _ hi h := by cases hi.symm.trans h.1
  fg s t hi h := by cases hi.symm.trans h.1
  feed _ _ h := h

end Stuck

/-- Under PKTDIS an IN token is NAKed or not answered, and changes nothing (45_sie_bus_agent R145). -/
theorem exec_busIn_turnedAway {s t : State} {a : BitVec 7} {ep : BitVec 4} (hp : s.pktdis = true)
    (h : exec (.busIn a ep) s = .next t) : t = s.answer .nak ∨ t = s.answer .none := by
  by_cases ha : a = s.addr
  · subst ha
    cases hs : slotOf ep .inn with
    | none =>
      rw [exec_busIn_of_disabled (by rw [← slotOf_isSome, hs]; rfl)] at h
      exact .inr (Host.Outcome.next.inj h).symm
    | some sl =>
      rw [exec_busIn_of_pktdis hs hp] at h
      exact .inl (Host.Outcome.next.inj h).symm
  · rw [exec_busIn_of_addr_ne ha] at h
    exact .inr (Host.Outcome.next.inj h).symm

/-- Settles O60: the arm holds, so the ISR stands, and under PKTDIS no token collects the packet it waits for. -/
theorem holdUnderPktdisNeverEnds : Obligations.HoldUnderPktdisNeverEnds := by
  refine ⟨fun s t hs h => ?_, fun s t a ep hs h => ?_⟩
  · obtain ⟨hp, hi, hpkt, ho, a, k, hin, hlegal, hk⟩ := hs
    obtain ⟨hi', hpkt', ho', hk', hf'⟩ : Stuck a k s.kfg t :=
      (publicKept_stuck hin hlegal).step hp h ⟨hi, hpkt, ho, hk, rfl⟩
    exact ⟨⟨publicFeed_step h hp, hi', hpkt', ho', a, k, hin, hlegal, hk'⟩, hf', hk'.trans hk.symm⟩
  · obtain ⟨-, -, hpkt, -⟩ := hs
    exact exec_busIn_turnedAway hpkt h

end Sys2Proof.Machine

namespace Sys2Proof.Machine

open Sys2Proof.Spec0

/-! ## Endpoint 0 after a dropped request (70_reset R187) -/

/-! ### The invocation of a dropped packet (41_control_transfer R107, 42_dispatcher R116, R119) -/

theorem setupPlan_of_isDropped {i : Instr} {s : State} (h : isDropped i s = true) : setupPlan i s = planDrop s := by
  cases i
  case getDescriptorConfiguration => exact planConfiguration_of_length_le (of_decide_eq_true h) _
  case getDescriptorString => exact planString_of_length_le (of_decide_eq_true h) _
  case getDescriptorOther | stdOther | reservedType => rfl
  all_goals cases h

/-- The invocation of a SETUP completion whose packet is dropped resets CTRL, enables packet processing and consumes the
completion. -/
theorem exec_dispatchTrnOut_of_drop {s : State} (hs : CanEnter s) (hpid : s.bdt.ep0Out.pid = Pid.setup)
    (hdrop : isDropped (decodeSetup (readSetup s.ram s.bdt.ep0Out.adr)) s = true) :
    exec (.dispatchTrnOut 0) s
      = .next { s with ctrl := .awaitingRequest, pktdis := false, ustatq := s.ustatq.tail } := by
  obtain ⟨-, -, hinisr, hkisr⟩ := id hs
  have hsetup : planSetupDecode s.enterIsr = planDrop s.enterIsr := setupPlan_of_isDropped (s := s.enterIsr) hdrop
  have hrow : decodeOutDone 0 (s.enterIsr.bd .ep0Out).pid = .ep0Setup := congrArg (decodeOutDone 0) hpid
  have hhandler : outDonePlan (decodeOutDone 0 (s.enterIsr.bd .ep0Out).pid) s.enterIsr
      = .ok (setupBegin s.enterIsr, [.pktdisOff]) := by
    rw [hrow, outDonePlan, planEp0Setup, hsetup]
    rfl
  have hplan : irqPlan (.dispatchTrnOut 0) s.enterIsr = .ok (setupBegin s.enterIsr, [.pktdisOff, .dequeue]) :=
    planTrnOut_of_ok (sl := .ep0Out) rfl hhandler
  rw [exec_irq16_of_canEnter rfl hs, hplan]
  exact congrArg Host.Outcome.next (leave_enter
    (s := { s with ctrl := .awaitingRequest, pktdis := false, ustatq := s.ustatq.tail }) hkisr hinisr)

/-! ### Descriptors that nothing arms -/

/-- The CPU owns each of these descriptors, and none of the operations arms one. -/
def Unarmed (D : List Slot) (l : List IsrOp) (s : State) : Prop :=
  ∀ sl ∈ D, (s.bd sl).own = .cpu ∧ ∀ a, ArmOp.slot a = some sl → .arm a ∉ l

/-- No OUT completion of endpoint 0 waits, and nothing that is left to do arms one of these descriptors. -/
def DeafTo (D : List Slot) (s : State) : Prop :=
  pending 0 .out s = 0 ∧ (∀ a, s.kfg ≠ .arm a) ∧ Unarmed D s.kisr.ops s

theorem ArmOp.slot_eq_ep0Out {a : ArmOp} : a.slot = some .ep0Out ↔ ∃ t, a = .armOut 0 t := by
  refine ⟨fun h => ?_, fun ⟨t, h⟩ => h ▸ rfl⟩
  cases a with
  | armOut ep t =>
    rcases slotOf_out h with ⟨rfl, -⟩ | ⟨-, h⟩
    · exact ⟨t, rfl⟩
    · cases h
  | armIn | stallIn => rcases slotOf_inn h with ⟨-, h⟩ | ⟨-, h⟩ | ⟨-, h⟩ <;> cases h

theorem ArmOp.slot_eq_ep0In {a : ArmOp} : a.slot = some .ep0In ↔ ArmOp.ep0In a = true := by
  refine ⟨fun h => ?_, ArmOp.slot_of_ep0In⟩
  cases a with
  | armOut => rcases slotOf_out h with ⟨-, h⟩ | ⟨-, h⟩ <;> cases h
  | armIn | stallIn =>
    rcases slotOf_inn h with ⟨rfl, -⟩ | ⟨-, h⟩ | ⟨-, h⟩
    · rfl
    · cases h
    · cases h

theorem deaf_iff {s : State} : Deaf s ↔ PublicFeed s ∧ DeafTo [.ep0Out] s := by
  simp only [Deaf, DeafTo, Unarmed, List.forall_mem_singleton, ArmOp.slot_eq_ep0Out, forall_exists_index,
    forall_eq_apply_imp_iff, State.bd]
  tauto

theorem silent_iff {s : State} : Silent s ↔ PublicFeed s ∧ DeafTo [.ep0Out, .ep0In] s := by
  simp only [Silent, deaf_iff, DeafTo, Unarmed, List.forall_mem_cons, List.not_mem_nil, ArmOp.slot_eq_ep0In, State.bd]
  tauto

theorem Unarmed.of_sublist {D : List Slot} {l l' : List IsrOp} {s : State} (h : Unarmed D l s) (hl : l' ⊆ l) :
    Unarmed D l' s := fun sl hsl => ⟨(h sl hsl).1, fun a ha hm => (h sl hsl).2 a ha (hl hm)⟩

/-- An arming operation of another descriptor leaves these with the CPU. -/
theorem Unarmed.arm {D : List Slot} {l : List IsrOp} {s u : State} (h : Unarmed D l s) {a : ArmOp}
    (ha : ∀ sl ∈ D, a.slot ≠ some sl) (hr : a.run s = .done u) : Unarmed D l u := by
  obtain ⟨sl', hsl', -, -, hbd, -⟩ := ArmOp.run_done hr
  refine fun sl hsl => ⟨?_, (h sl hsl).2⟩
  have hne : sl ≠ sl' := by
    rintro rfl
    exact ha sl hsl hsl'
  rw [hbd, if_neg hne]
  exact (h sl hsl).1

theorem DeafTo.arm {D : List Slot} {s u : State} (h : DeafTo D s) {a : ArmOp} (ha : ∀ sl ∈ D, a.slot ≠ some sl)
    (hr : a.run s = .done u) : DeafTo D u := by
  obtain ⟨hq, hk, hops⟩ := h
  have hu := hops.arm ha hr
  rw [ArmOp.run_eq hr] at hu ⊢
  exact ⟨hq, hk, hu⟩

theorem pending_tail {ep : BitVec 4} {dir : Dir} {s : State} (h : pending ep dir s = 0) :
    s.ustatq.tail.count ⟨ep, dir⟩ = 0 :=
  Nat.le_zero.mp (h ▸ (List.tail_sublist _).count_le _)

theorem deafRule (D : List Slot) : DriveRule (fun l s => DeafTo D s ∧ Unarmed D l s) (DeafTo D) where
  pktdisOff k s h := ⟨h.1, h.2.of_sublist (List.subset_cons_self _ k)⟩
  dequeue k s h := by
    obtain ⟨⟨hq, hk, hops⟩, hl⟩ := h
    exact ⟨⟨pending_tail hq, hk, hops⟩, hl.of_sublist (List.subset_cons_self _ k)⟩
  arm a k s u h hr := by
    obtain ⟨hs, hl⟩ := h
    have ha (sl : Slot) (hsl : sl ∈ D) : a.slot ≠ some sl := fun ha => (hl sl hsl).2 a ha List.mem_cons_self
    exact ⟨hs.arm ha hr, (hl.arm ha hr).of_sublist (List.subset_cons_self _ k)⟩
  stop _ h := h.1
  ret _ _ h := ⟨h.1.1, h.1.2.1, h.2.of_sublist (List.nil_subset _)⟩
  hold _ _ _ h := ⟨h.1.1, h.1.2.1, h.2⟩
  raise _ _ h := h

/-- Where no OUT completion of endpoint 0 waits an entry arms the data endpoint alone. -/
theorem EntryOps.arms_data {s : State} {ops : List IsrOp} (h : EntryOps s ops) (hq : pending 0 .out s = 0) {a : ArmOp}
    (ha : .arm a ∈ ops) : a.slot = some .ep2Out := by
  cases h with
  | nothing => cases ha
  | inn => simp at ha
  | @out ep l hhead hl =>
    have hends : IsrOp.arm a ∉ outEnd ep := by
      unfold outEnd
      split <;> simp
    have hmem : .arm a ∈ l := by simpa [hends] using ha
    cases hl with
    | nothing => cases hmem
    | data t =>
      obtain rfl := IsrOp.arm.inj (List.mem_singleton.mp hmem)
      rfl
    | ep0 => exact absurd (List.mem_of_mem_head? hhead) (List.count_eq_zero.mp hq)

/-- The SIE completes only what it owns (45_sie_bus_agent R147 to R151). -/
theorem busKept_deaf {D : List Slot} (h0 : .ep0Out ∈ D) : BusKept (DeafTo D) where
  received s ep sl pid d hsl ho _ _ h := by
    obtain ⟨hq, hk, hops⟩ := h
    have hne (sl' : Slot) (hsl' : sl' ∈ D) : sl' ≠ sl := by
      rintro rfl
      cases ho.symm.trans (hops sl' hsl').1
    have hep : ep ≠ 0 := by
      rintro rfl
      cases hsl
      exact hne _ h0 rfl
    rw [DeafTo, Unarmed]
    simp only [receive_bd]
    rw [receive_eq]
    refine ⟨?_, hk, fun sl' hsl' => ?_⟩
    · simpa [pending, List.count_append, List.count_singleton] using And.intro hq hep
    · rw [if_neg (hne sl' hsl')]
      exact hops sl' hsl'
  transmitted s ep sl hsl ho _ h := by
    obtain ⟨hq, hk, hops⟩ := h
    rw [DeafTo, Unarmed]
    simp only [transmit_bd]
    rw [transmit_eq]
    refine ⟨?_, hk, fun sl' hsl' => ?_⟩
    · simpa [pending, List.count_append] using hq
    · rw [if_neg]
      · exact hops sl' hsl'
      · rintro rfl
        cases ho.symm.trans (hops sl' hsl').1

section Deaf

variable {D : List Slot} (hep0 : ∀ sl ∈ D, sl = .ep0Out ∨ sl = .ep0In)
include hep0

theorem deaf_entry {s u : State} {ops : List IsrOp} (h : DeafTo D s) (hr : s.isrReady = true)
    (hplan : irqPlan (irqRow s) s.enterIsr = .ok (u, ops)) : DeafTo D u ∧ Unarmed D (ops ++ [.ret]) u := by
  obtain ⟨hq, hk, hops⟩ := h
  obtain ⟨⟨huq, huk, huo⟩, hkisr⟩ := entry_keepsOwned hplan
  have hown (sl : Slot) (hsl : sl ∈ D) : (u.bd sl).own = .cpu := huo sl (hops sl hsl).1
  refine ⟨⟨by rw [pending, huq]; exact hq, by rw [huk]; exact hk, fun sl hsl => ⟨hown sl hsl, ?_⟩⟩,
    fun sl hsl => ⟨hown sl hsl, fun a ha hmem => ?_⟩⟩
  · rw [hkisr]
    simp [KIsr.ops]
  · have hdata := (entryOps hr hplan).arms_data hq (by simpa using hmem)
    rcases hep0 sl hsl with rfl | rfl <;> cases ha.symm.trans hdata

/-- What FG arms is the data endpoint (44_byte_stream R137). -/
theorem deaf_fgStep {s t : State} (h : DeafTo D s) (hm : fgStep s = .moved t) : DeafTo D t := by
  obtain ⟨hq, hk, hops⟩ := id h
  cases fgMoves hm with
  | write3 _ hu =>
    obtain ⟨huq, -, huops⟩ := h.arm (fun sl hsl => by rcases hep0 sl hsl with rfl | rfl <;> exact nofun) hu
    exact ⟨huq, nofun, huops⟩
  | write4 => exact ⟨hq, writeFrom_ne_arm _ _, hops⟩
  | arm hka => exact absurd hka (hk _)
  | _ => exact ⟨hq, nofun, hops⟩

theorem publicKept_deaf (h0 : .ep0Out ∈ D) : PublicKept (fun l s => DeafTo D s ∧ Unarmed D l s) (DeafTo D) where
  rule := deafRule D
  held s k h hk := ⟨h, by
    obtain ⟨-, -, hops⟩ := h
    rwa [hk] at hops⟩
  entry _ _ _ := deaf_entry hep0
  bus _ _ _ hf hw ht := (busKept_deaf h0).busRan (busRan_of_exec hf ht) hw
  call _ _ hk _ h := ⟨h.1, hk.ne_arm, h.2.2⟩
  fg _ _ _ := deaf_fgStep hep0
  feed _ _ h := h

end Deaf

theorem deaf_step {s t : State} (h : step s = .next t) (hs : Deaf s) : Deaf t := by
  obtain ⟨hp, hd⟩ := deaf_iff.mp hs
  exact deaf_iff.mpr ⟨publicFeed_step h hp, (publicKept_deaf (by simp) (by simp)).step hp h hd⟩

theorem silent_step {s t : State} (h : step s = .next t) (hs : Silent s) : Silent t := by
  obtain ⟨hp, hd⟩ := silent_iff.mp hs
  exact silent_iff.mpr ⟨publicFeed_step h hp, (publicKept_deaf (by simp) (by simp)).step hp h hd⟩

/-- Settles O59: the drop arms nothing, a descriptor nothing arms stays with the CPU, and its tokens are turned away. -/
theorem droppedRequestLeavesEp0Deaf : Obligations.DroppedRequestLeavesEp0Deaf := by
  refine ⟨fun s i q hs hp hk ho hpid hq hnot hdec hdrop => ?_, fun s t h => ⟨deaf_step h, silent_step h⟩,
    fun s a p hs => ?_, fun s hs => ?_⟩
  · obtain rfl : decodeSetup (readSetup s.ram s.bdt.ep0Out.adr) = i :=
      Except.ok.inj ((decode_setup64_memRead ..).symm.trans hdec)
    obtain ⟨-, -, -, hkisr⟩ := id hs
    have hnone : s.kisr.ops = [] := by rw [hkisr]; rfl
    have hdeaf : Deaf { s with ctrl := .awaitingRequest, pktdis := false, ustatq := q } :=
      ⟨hp, ho, List.count_eq_zero.mpr hnot, fun t => by rw [hnone]; simp, hk⟩
    refine ⟨_, exec_dispatchTrnOut_of_drop hs hpid hdrop, by rw [hq, List.tail_cons], ?_, fun hin => ?_⟩ <;>
      rw [hq, List.tail_cons]
    · exact hdeaf
    · exact ⟨hdeaf, hin, fun a _ => by rw [hnone]; simp⟩
  · obtain ⟨-, ho, -⟩ := hs
    exact exec_busSetup_ignored (by simp [ho])
  · obtain ⟨-, hin, -⟩ := hs
    cases hp : s.pktdis with
    | true => exact exec_busIn_of_pktdis (sl := .ep0In) rfl hp
    | false =>
      rw [exec_busIn_of_slot (sl := .ep0In) rfl hp]
      exact congrArg Host.Outcome.next (busInStep_of_cpu hin)

end Sys2Proof.Machine

namespace Sys2Proof.Machine

open Sys2Proof.Spec0

/-! ## INIT (70_reset R176 to R180) -/

/-- Two buffers are disjoint exactly when they share no address (00_scope R17). -/
theorem disjointBufs_iff {a b : BitVec 16} :
    disjointBufs a b = true ↔ ∀ i j : Nat, i < 64 → j < 64 → bufAddr a i ≠ bufAddr b j := by
  refine ⟨fun h i j hi hj => bufAddr_ne h hi hj, fun h => ?_⟩
  have apart {x y : BitVec 16} (hne : ∀ j, j < 64 → bufAddr x 0 ≠ bufAddr y j) : Config.maxP ≤ (x - y).toNat := by
    refine Nat.le_of_not_lt fun hlt => hne (x - y).toNat hlt ?_
    rw [bufAddr, bufAddr, BitVec.ofNat_toNat, BitVec.setWidth_eq, BitVec.add_comm y, BitVec.sub_add_cancel,
      BitVec.add_zero]
  rw [disjointBufs, Bool.and_eq_true, decide_eq_true_eq, decide_eq_true_eq]
  exact ⟨apart fun j => h 0 j (by decide), apart fun j hj => (h j 0 hj (by decide)).symm⟩

theorem bufAddrsWf_iff {c : Params} :
    bufAddrsWf c.bufAddr = true ↔ ∀ sl sl' : Slot, sl ≠ sl' → ∀ i j : Nat, i < 64 → j < 64 →
      bufAddr (paramAddr c sl) i ≠ bufAddr (paramAddr c sl') j := by
  refine ⟨fun h sl sl' hne => disjointBufs_iff.mp (disjointBufs_of_ne h hne), fun h => ?_⟩
  have disjoint (sl sl' : Slot) (hne : sl ≠ sl') : disjointBufs (paramAddr c sl) (paramAddr c sl') = true :=
    disjointBufs_iff.mpr (h sl sl' hne)
  simp only [bufAddrsWf, Bool.and_eq_true, and_assoc]
  exact ⟨disjoint .ep0Out .ep0In nofun, disjoint .ep0Out .ep1In nofun, disjoint .ep0Out .ep2Out nofun,
    disjoint .ep0Out .ep2In nofun, disjoint .ep0In .ep1In nofun, disjoint .ep0In .ep2Out nofun,
    disjoint .ep0In .ep2In nofun, disjoint .ep1In .ep2Out nofun, disjoint .ep1In .ep2In nofun,
    disjoint .ep2Out .ep2In nofun⟩

theorem catalogWf_iff {c : Catalog} :
    catalogWf c = true ↔ c.dev.length = 18 ∧ c.confs ≠ []
      ∧ (∀ k ∈ c.confs, k.header.length = 9
          ∧ (k.header ++ k.ifaces.flatMap fun i => i.iface ++ i.subs.flatten).length ≤ 65535)
      ∧ c.strs ≠ [] ∧ ∀ d ∈ c.strs, d.length ≤ 253 := by
  simp [catalogWf, confBlob, Config.devLen, List.flatMap_def, and_assoc]

/-- The arms of INIT find their descriptors with the CPU (70_reset R176). -/
theorem initArms_initRegisters (s : State) :
    initArms (initRegisters s)
      = ((initRegisters s).setBd .ep0Out (armedOut false (initBd s.cfg.bufAddr.ep0Out s.bdt.ep0Out))).setBd .ep2Out
          (armedOut false (initBd s.cfg.bufAddr.ep2Out s.bdt.ep2Out)) := by
  have h0 : (ArmOp.armOut 0 false).run (initRegisters s) = .done _ := ArmOp.run_of_cpu (sl := .ep0Out) trivial rfl rfl
  have h2 : (ArmOp.armOut 2 false).run ((ArmOp.armOut 0 false).after .ep0Out (initRegisters s)) = .done _ :=
    ArmOp.run_of_cpu (sl := .ep2Out) trivial rfl rfl
  exact (drive_arm_done _ _ h0).trans (drive_arm_done _ _ h2)

theorem execInit_of_not_paramsWf {s : State} (h : ¬paramsWf s.cfg = true) : execInit s = .refused .notLaunched := if_neg h

/-- Settles O2: with admissible parameters the two arms complete, and the admissible parameters are those of R43 and R162.
That INIT may run from any state is log entry 19. -/
theorem initLaunchesOrRefuses : Obligations.InitLaunchesOrRefuses := by
  refine ⟨fun s h => ?_, fun s => ?_⟩
  · show execInit s = _
    rw [execInit, if_pos h, initArms_initRegisters]
    rfl
  · have hrefused : exec .init s = .refused .notLaunched ↔ ¬paramsWf s.cfg = true := by
      refine ⟨fun h hwf => ?_, execInit_of_not_paramsWf⟩
      cases (if_pos hwf : execInit s = _).symm.trans h
    rw [hrefused]
    simp only [paramsWf, Bool.and_eq_true, decide_eq_true_eq, catalogWf_iff, bufAddrsWf_iff, and_assoc]

end Sys2Proof.Machine
